-- ==== Sys2Proof/Word.lean ====
section
/-! DEFINITION. The element types of the block's buffers (R10, R16, R40, R240): bits, bytes, command words, characters. -/

namespace Sys2Proof

/-- One bit of a BitSequence (R10). -/
abbrev Bit := Bool

/-- A finite ordered list of bits, element 0 first (R10, R41). -/
abbrev BitSeq := List Bit

/-- A byte value, 0 to 255 (`FLAG`, `ESC`, R107). -/
abbrev Byte := BitVec 8

/-- The 8-bit command word `CMD` (R60). -/
abbrev CmdWord := BitVec 8

/-- The packed configuration word `CFGW` (R66). -/
abbrev CfgWord := BitVec 16

/-- A character, by its numeric code point (R240); a code point above 255 can be presented and is refused by the operations. -/
abbrev Chr := Nat

/-- A text: a sequence of characters (R240). -/
abbrev Text := List Chr

end Sys2Proof
end

