-- ==== Sys2Proof/Machine/Sample.lean ====
section
/-! DEFINITION. The number system `Num` of a Signal sample (R8, R15, R214; log 1): exact real numbers that a
computation can hold. A number is a rational combination of cosines of rational angles, so every sum, product and
reference sine or cosine of the rules is exact, and its sign is decided exactly. Angles are in turns: one turn is 2π.
Sys2Proof/Laws/SampleReal.lean proves that each operation is the operation on the reals and that `Sample.lt` is their order. -/

namespace Sys2Proof.Machine

/-- An exact real: each term `(q, c)` stands for c·cos(2π·q), and the number is the sum of its terms. The operations
keep the terms in rising order of q with no zero coefficient. -/
structure Sample where
  terms : List (ℚ × ℚ)
deriving DecidableEq, Repr, Inhabited

/-- Adds the term c·cos(2π·q) to a rising list of terms. -/
def insertTerm (q c : ℚ) : List (ℚ × ℚ) → List (ℚ × ℚ)
  | [] => if c = 0 then [] else [(q, c)]
  | t :: l =>
    if q < t.1 then (if c = 0 then t :: l else (q, c) :: t :: l)
    else if q = t.1 then (if c + t.2 = 0 then l else (q, c + t.2) :: l)
    else t :: insertTerm q c l

/-- The number 0. -/
def Sample.zero : Sample := ⟨[]⟩

/-- A rational number as a sample. -/
def Sample.ofRat (r : ℚ) : Sample := ⟨if r = 0 then [] else [(0, r)]⟩

/-- Sum. -/
def Sample.add (x y : Sample) : Sample := ⟨x.terms.foldr (fun t l => insertTerm t.1 t.2 l) y.terms⟩

/-- Product with a rational. -/
def Sample.scale (r : ℚ) (x : Sample) : Sample := ⟨if r = 0 then [] else x.terms.map fun t => (t.1, r * t.2)⟩

/-- Negative. -/
def Sample.neg (x : Sample) : Sample := x.scale (-1)

/-- Difference. -/
def Sample.sub (x y : Sample) : Sample := x.add y.neg

/-- Sum of a list. -/
def Sample.sum (l : List Sample) : Sample := l.foldr Sample.add Sample.zero

/-- c·cos(2π·q) with the angle brought into the first quarter turn; the cosines of 1/6, 1/4 and 1/3 turn are rational. -/
def cosTerm (q c : ℚ) : Sample :=
  let a := q - (⌊q⌋ : ℤ)
  let b := if 1/2 < a then 1 - a else a
  if b = 1/6 then Sample.ofRat (c / 2)
  else if b = 1/4 then Sample.zero
  else if b = 1/3 then Sample.ofRat (-c / 2)
  else if b < 1/4 then ⟨insertTerm b c []⟩ else ⟨insertTerm (1/2 - b) (-c) []⟩

/-- cos of an angle of q turns (R191: θ(f, j) is f·j/S turns). -/
def Sample.cosTurns (q : ℚ) : Sample := cosTerm q 1

/-- sin of an angle of q turns. -/
def Sample.sinTurns (q : ℚ) : Sample := cosTerm (q - 1/4) 1

/-- The product of two terms, by cos a · cos b = (cos (a+b) + cos (a−b)) / 2. -/
def mulTerm (s t : ℚ × ℚ) : Sample :=
  (cosTerm (s.1 + t.1) (s.2 * t.2 / 2)).add (cosTerm (s.1 - t.1) (s.2 * t.2 / 2))

/-- Product. -/
def Sample.mul (x y : Sample) : Sample :=
  x.terms.foldr (fun s acc => y.terms.foldr (fun t acc' => (mulTerm s t).add acc') acc) Sample.zero

/-- Whether the next k values of the recurrence u' = 2·x·u − u'' from a, b are all ≥ 0 (the Chebyshev values U₀(x), U₁(x), …). -/
def chebNonneg (x : ℚ) : Nat → ℚ → ℚ → Bool
  | 0, _, _ => true
  | k + 1, a, b => decide (0 ≤ a) && chebNonneg x k b (2 * x * b - a)

/-- An integer l with l/2^t ≤ cos(π/n) ≤ (l+2)/2^t, by t halvings of [−1, 1]; a midpoint x lies at or above cos(π/n)
exactly when U₀(x), …, U₍ₙ₋₁₎(x) are all ≥ 0. -/
def cosBracket (n : Nat) : Nat → ℤ
  | 0 => -1
  | t + 1 =>
    let l := cosBracket n t
    let x : ℚ := ((l + 1 : ℤ) : ℚ) / (2 ^ t : ℕ)
    if chebNonneg x n 1 (2 * x) then 2 * l else 2 * l + 2

/-- The k-th value of the same recurrence from a, b (from 1, x: the Chebyshev value T_k(x)). -/
def chebValue (x : ℚ) : Nat → ℚ → ℚ → ℚ
  | 0, a, _ => a
  | k + 1, a, b => chebValue x k b (2 * x * b - a)

/-- The least common denominator of the terms' angles. -/
def turnDen (l : List (ℚ × ℚ)) : Nat := l.foldr (fun t n => Nat.lcm t.1.den n) 1

/-- The least common denominator of the terms' coefficients. -/
def coeffDen (l : List (ℚ × ℚ)) : Nat := l.foldr (fun t n => Nat.lcm t.2.den n) 1

/-- h with cos(2π·q) = cos(h·π/n), for an angle q whose denominator divides n. -/
def harmonic (n : Nat) (q : ℚ) : Nat := 2 * (q.num.natAbs * (n / q.den))

/-- The value of the terms with cos(π/n) replaced by x. -/
def approxAt (n : Nat) (x : ℚ) (l : List (ℚ × ℚ)) : ℚ :=
  l.foldr (fun t acc => t.2 * chebValue x (harmonic n t.1) 1 x + acc) 0

/-- A bound of `approxAt`'s change per unit of x: the sum of |c|·h². -/
def approxSlope (n : Nat) (l : List (ℚ × ℚ)) : ℚ :=
  l.foldr (fun t acc => |t.2| * (harmonic n t.1 : ℚ) ^ 2 + acc) 0

/-- A bound of every conjugate of 2·D·(the number), D its coefficients' denominator. -/
def conjugateBound (l : List (ℚ × ℚ)) : Nat :=
  l.foldr (fun t b => 2 * (t.2.num.natAbs * (coeffDen l / t.2.den)) + b) 0

/-- A number of halvings after which an approximation that does not separate the number from 0 proves it to be 0. -/
def enoughBits (n : Nat) (l : List (ℚ × ℚ)) : Nat :=
  Nat.log2 (8 * coeffDen l * ⌈approxSlope n l⌉.natAbs * conjugateBound l ^ n + 1) + 1

/-- What t halvings tell of the sign: `.eq` where they do not separate the number from 0. -/
def probeSign (n : Nat) (slope : ℚ) (l : List (ℚ × ℚ)) (t : Nat) : Ordering :=
  let a := approxAt n (((cosBracket n t : ℤ) : ℚ) / (2 ^ t : ℕ)) l
  let e := slope * 2 / (2 ^ t : ℕ)
  if e < a then .gt else if a < -e then .lt else .eq

/-- Doubles the precision until the sign is known or enough halvings were made; the first argument bounds the doublings. -/
def signLoop (n : Nat) (slope : ℚ) (l : List (ℚ × ℚ)) (enough : Nat) : Nat → Nat → Ordering
  | 0, t => probeSign n slope l t
  | f + 1, t =>
    match probeSign n slope l t with
    | .eq => if enough ≤ t then .eq else signLoop n slope l enough f (2 * t)
    | o => o

/-- The sign of a number: `.gt` positive, `.eq` zero, `.lt` negative. -/
def Sample.sign (x : Sample) : Ordering :=
  let n := turnDen x.terms
  let enough := enoughBits n x.terms
  signLoop n (approxSlope n x.terms) x.terms enough enough 8

/-- x < y (every comparison of the decoders, R171, is this one). -/
def Sample.lt (x y : Sample) : Bool := (y.sub x).sign == .gt

/-- x and y are the same real number. -/
def Sample.same (x y : Sample) : Bool := (y.sub x).sign == .eq

/-- x > 0. -/
def Sample.isPos (x : Sample) : Bool := Sample.zero.lt x

/-- x < 0. -/
def Sample.isNeg (x : Sample) : Bool := x.lt Sample.zero

/-- |x|. -/
def Sample.abs (x : Sample) : Sample := if x.isNeg then x.neg else x

/-- max(x, 0). -/
def Sample.posPart (x : Sample) : Sample := if x.isPos then x else Sample.zero

/-- The arithmetic mean of a list (R13). -/
def Sample.mean (l : List Sample) : Sample := (Sample.sum l).scale (1 / l.length)

end Sys2Proof.Machine
end

