-- ==== Sys2Proof/Config.lean ====
section
/-! DEFINITION. The build of the block: its parameters (R8, R279) and the free values of the environment. A step reads
the parameters from State (log 3), so everything holds for every build; `Config.build` is the build of State.reset. -/

namespace Sys2Proof

open Machine

/-- One entry of a symbol table: a relative amplitude a and a phase φ (R16, R198), held as the Cartesian point
(a·cos φ, a·sin φ), through which alone R198 to R200 depend on them (log 2). -/
structure SymEntry where
  x : Sample
  y : Sample
deriving DecidableEq, Repr, Inhabited

/-- The entry of a relative amplitude and a phase in degrees (R198). -/
def SymEntry.polar (amp phaseDeg : ℚ) : SymEntry where
  x := (Sample.cosTurns (phaseDeg / 360)).scale amp
  y := (Sample.sinTurns (phaseDeg / 360)).scale amp

/-- A symbol table: the entry of a tuple stands at the tuple's value (R79); exhaustive over k bits when it has 2^k entries. -/
abbrev SymTab := List SymEntry

/-- `LPF_ALIGN`: where the bridge's moving-average window lies about its sample (R224; log 6). -/
inductive LpfAlign where
  | centred
  | causal
  | anticausal
deriving DecidableEq, Repr, Inhabited

/-- The build parameters of R8. `BITFLAG`, `STUFF_RUN`, `CC_MAX` and `CRC_POLY` are fixed and stand in the operations. -/
structure Params where
  /-- `FLAG`, the byte-stuffing flag byte (R107). -/
  flag : Byte
  /-- `ESC`, the byte-stuffing escape byte (R107). -/
  esc : Byte
  /-- `S`, samples per bit and per symbol period (R170, R190). -/
  samples : Nat
  /-- `V`, the line-code amplitude (R170). -/
  lineAmp : Sample
  /-- `A_MAX`, the carrier peak amplitude (R192, R199). -/
  carrierAmp : Sample
  /-- `F_C`, carrier cycles per symbol period (R191). -/
  carrierFreq : Nat
  /-- `T_ASK`, the ASK threshold on the mean absolute sample (R194). -/
  askThreshold : Sample
  /-- `SYMTAB[BPSK]` (R198). -/
  bpskTab : SymTab
  /-- `SYMTAB[QPSK]` (R198). -/
  qpskTab : SymTab
  /-- `SYMTAB[8PSK]` (R198). -/
  psk8Tab : SymTab
  /-- `SYMTAB[QAM16]` (R198). -/
  qam16Tab : SymTab
  /-- `T_BRIDGE`, the bridge's ASK decision threshold (R225). -/
  bridgeThreshold : Sample
  /-- `LPF_ALIGN` (R224). -/
  lpfAlign : LpfAlign
  /-- `T_PROP`, the simulated propagation delay; no rule depends on it (R8, R256; log 25). -/
  propDelay : Sample
deriving DecidableEq, Repr, Inhabited

/-- `S` of the reset state's build; the spec gives no value (R8). -/
opaque Config.samples : Nat
/-- `V` of the reset state's build; the spec gives no value (R8). -/
opaque Config.lineAmp : Sample
/-- `A_MAX` of the reset state's build; the spec gives no value (R8). -/
opaque Config.carrierAmp : Sample
/-- `F_C` of the reset state's build; the spec gives no value (R8). -/
opaque Config.carrierFreq : Nat
/-- `T_ASK` of the reset state's build; the spec gives no value (R8). -/
opaque Config.askThreshold : Sample
/-- `SYMTAB[BPSK]` of the reset state's build; its contents are not in the source (R198). -/
opaque Config.bpskTab : SymTab
/-- `SYMTAB[QPSK]` of the reset state's build; its contents are not in the source (R198). -/
opaque Config.qpskTab : SymTab
/-- `SYMTAB[8PSK]` of the reset state's build; its contents are not in the source (R198). -/
opaque Config.psk8Tab : SymTab
/-- `SYMTAB[QAM16]` of the reset state's build; its contents are not in the source (R198). -/
opaque Config.qam16Tab : SymTab
/-- `T_BRIDGE` of the reset state's build; the spec gives no value (R8, R225). -/
opaque Config.bridgeThreshold : Sample
/-- `T_PROP` of the reset state's build; the spec gives no value (R8). -/
opaque Config.propDelay : Sample

/-- The build of State.reset: `FLAG`, `ESC` and `LPF_ALIGN` at the defaults the spec names (R8, R224; log 4, log 6), and
every parameter for which it names none an opaque constant (log 3). -/
def Config.build : Params where
  flag := 0x7E#8
  esc := 0x7D#8
  samples := Config.samples
  lineAmp := Config.lineAmp
  carrierAmp := Config.carrierAmp
  carrierFreq := Config.carrierFreq
  askThreshold := Config.askThreshold
  bpskTab := Config.bpskTab
  qpskTab := Config.qpskTab
  psk8Tab := Config.psk8Tab
  qam16Tab := Config.qam16Tab
  bridgeThreshold := Config.bridgeThreshold
  lpfAlign := .centred
  propDelay := Config.propDelay

/-- The noise draw number i beyond the draws the outside supplied in `State.noise`: a free value (R30, R237; log 7). -/
opaque Config.noise : Nat → Sample

end Sys2Proof
end

