-- ==== Sys2Proof/Syntax.lean ====
section
/-! DEFINITION. The 56 operations (R62), and the names the configuration and the results are made of (R23, R67, R68). -/

namespace Sys2Proof

/-- The operations, one constructor for each row of spec/opcode_table.json, in its order (R62). A command has no
immediate and no register operand (R60): its operand is the buffer `IN`. -/
inductive Instr where
  | frmCcEnc | frmCcDec | frmBsEnc | frmBsDec | frmBitEnc | frmBitDec
  | ecNoneEnc | ecNoneChk | ecNoneStrip
  | ecParEnc | ecParChk | ecParStrip
  | ecSumEnc | ecSumChk | ecSumStrip
  | ecCrcEnc | ecCrcChk | ecCrcStrip
  | ecHamEnc | ecHamDec
  | lcNrzEnc | lcNrzDec | lcManEnc | lcManDec | lcAmiEnc | lcAmiDec
  | cmAskMod | cmAskDem | cmFskMod | cmFskDem | cmBpskMod | cmBpskDem
  | cmQpskMod | cmQpskDem | cm8pskMod | cm8pskDem | cmQam16Mod | cmQam16Dem
  | abAskFwd | abAskRev | abFskFwd | abFskRev | abBpskFwd | abBpskRev
  | abQpskFwd | abQpskRev | ab8pskFwd | ab8pskRev | abQam16Fwd | abQam16Rev
  | chNoise
  | txtEnc | txtDec
  | plConfigure | plTransmit | plInspect
deriving DecidableEq, Repr, Inhabited

/-- The line-coding scheme (R67). -/
inductive LineCode where
  | nrz | manchester | bipolar
deriving DecidableEq, Repr, Inhabited

/-- The carrier schemes (R67), "none" aside. -/
inductive Scheme where
  | ask | fsk | bpsk | qpsk | psk8 | qam16
deriving DecidableEq, Repr, Inhabited

/-- The carrier scheme of a configuration: a scheme, or "none" (R67). -/
abbrev Carrier := Option Scheme

/-- The framing scheme (R67). -/
inductive Framing where
  | characterCount | byteStuffing | bitStuffing
deriving DecidableEq, Repr, Inhabited

/-- The error-control scheme (R67). -/
inductive ErrorControl where
  | none | parity | checksum | crc | hamming
deriving DecidableEq, Repr, Inhabited

/-- A PipelineConfig: the six fields of R23. -/
structure PipeCfg where
  line : LineCode
  carrier : Carrier
  carrierEn : Bool
  framing : Framing
  ec : ErrorControl
  sigma : Machine.Sample
deriving DecidableEq, Repr, Inhabited

/-- The status vocabulary (R26, R68). -/
inductive Status where
  | success | parityError | checksumError | crcError | hammingOk | noVerification
deriving DecidableEq, Repr, Inhabited

/-- The mnemonic of an operation (R62). -/
def Instr.mnemonic : Instr → String
  | .frmCcEnc => "FRM.CC.ENC" | .frmCcDec => "FRM.CC.DEC"
  | .frmBsEnc => "FRM.BS.ENC" | .frmBsDec => "FRM.BS.DEC"
  | .frmBitEnc => "FRM.BIT.ENC" | .frmBitDec => "FRM.BIT.DEC"
  | .ecNoneEnc => "EC.NONE.ENC" | .ecNoneChk => "EC.NONE.CHK" | .ecNoneStrip => "EC.NONE.STRIP"
  | .ecParEnc => "EC.PAR.ENC" | .ecParChk => "EC.PAR.CHK" | .ecParStrip => "EC.PAR.STRIP"
  | .ecSumEnc => "EC.SUM.ENC" | .ecSumChk => "EC.SUM.CHK" | .ecSumStrip => "EC.SUM.STRIP"
  | .ecCrcEnc => "EC.CRC.ENC" | .ecCrcChk => "EC.CRC.CHK" | .ecCrcStrip => "EC.CRC.STRIP"
  | .ecHamEnc => "EC.HAM.ENC" | .ecHamDec => "EC.HAM.DEC"
  | .lcNrzEnc => "LC.NRZ.ENC" | .lcNrzDec => "LC.NRZ.DEC"
  | .lcManEnc => "LC.MAN.ENC" | .lcManDec => "LC.MAN.DEC"
  | .lcAmiEnc => "LC.AMI.ENC" | .lcAmiDec => "LC.AMI.DEC"
  | .cmAskMod => "CM.ASK.MOD" | .cmAskDem => "CM.ASK.DEM"
  | .cmFskMod => "CM.FSK.MOD" | .cmFskDem => "CM.FSK.DEM"
  | .cmBpskMod => "CM.BPSK.MOD" | .cmBpskDem => "CM.BPSK.DEM"
  | .cmQpskMod => "CM.QPSK.MOD" | .cmQpskDem => "CM.QPSK.DEM"
  | .cm8pskMod => "CM.8PSK.MOD" | .cm8pskDem => "CM.8PSK.DEM"
  | .cmQam16Mod => "CM.QAM16.MOD" | .cmQam16Dem => "CM.QAM16.DEM"
  | .abAskFwd => "AB.ASK.FWD" | .abAskRev => "AB.ASK.REV"
  | .abFskFwd => "AB.FSK.FWD" | .abFskRev => "AB.FSK.REV"
  | .abBpskFwd => "AB.BPSK.FWD" | .abBpskRev => "AB.BPSK.REV"
  | .abQpskFwd => "AB.QPSK.FWD" | .abQpskRev => "AB.QPSK.REV"
  | .ab8pskFwd => "AB.8PSK.FWD" | .ab8pskRev => "AB.8PSK.REV"
  | .abQam16Fwd => "AB.QAM16.FWD" | .abQam16Rev => "AB.QAM16.REV"
  | .chNoise => "CH.NOISE"
  | .txtEnc => "TXT.ENC" | .txtDec => "TXT.DEC"
  | .plConfigure => "PL.CONFIGURE" | .plTransmit => "PL.TRANSMIT" | .plInspect => "PL.INSPECT"

end Sys2Proof
end

