-- ==== Sys2Proof/WellFormed.lean ====
section
/-! DEFINITION. Well-formedness: the legal command fields (R60, R64), the domains of a configuration (R23, R247) and of a
build (R279). An instruction has no operand, so its only checks are those of its three command fields. -/

namespace Sys2Proof

open Machine

/-- The three fields of a command word (R60). -/
structure CmdFields where
  unit : Nat
  scheme : Nat
  fn : Nat
deriving DecidableEq, Repr

/-- The highest scheme code of a unit (R62, R64). -/
def CmdFields.maxScheme : Nat → Nat
  | 0 => 2 | 1 => 4 | 2 => 2 | 3 => 5 | 4 => 5 | 5 => 0 | 6 => 3 | _ => 0

/-- R64, the unit: 7 is reserved. -/
def CmdFields.unitOk (f : CmdFields) : Bool := f.unit < 7

/-- R64, the scheme: none above the unit's highest listed code. -/
def CmdFields.schemeOk (f : CmdFields) : Bool := f.scheme ≤ CmdFields.maxScheme f.unit

/-- R64, FN: 3 is reserved. -/
def CmdFields.fnOk (f : CmdFields) : Bool := f.fn < 3

/-- R64, STRIP: FN = 2 only in EC schemes 0 to 3. -/
def CmdFields.stripOk (f : CmdFields) : Bool := f.fn != 2 || (f.unit == 1 && f.scheme ≤ 3)

/-- R64, the inverse: FN = 1 not for CH.NOISE, PL.CONFIGURE, PL.TRANSMIT and PL.INSPECT. -/
def CmdFields.inverseOk (f : CmdFields) : Bool := f.fn != 1 || !(f.unit == 5 || (f.unit == 6 && 1 ≤ f.scheme))

/-- A command word is legal (R62) exactly when no clause of R64 reserves it. -/
def CmdFields.wf (f : CmdFields) : Bool := f.unitOk && f.schemeOk && f.fnOk && f.stripOk && f.inverseOk

/-- The fields of an operation's command: its unit, the scheme in the order of R62's lists, and its function (R60). -/
def Instr.fields : Instr → CmdFields
  | .frmCcEnc => ⟨0, 0, 0⟩ | .frmCcDec => ⟨0, 0, 1⟩
  | .frmBsEnc => ⟨0, 1, 0⟩ | .frmBsDec => ⟨0, 1, 1⟩
  | .frmBitEnc => ⟨0, 2, 0⟩ | .frmBitDec => ⟨0, 2, 1⟩
  | .ecNoneEnc => ⟨1, 0, 0⟩ | .ecNoneChk => ⟨1, 0, 1⟩ | .ecNoneStrip => ⟨1, 0, 2⟩
  | .ecParEnc => ⟨1, 1, 0⟩ | .ecParChk => ⟨1, 1, 1⟩ | .ecParStrip => ⟨1, 1, 2⟩
  | .ecSumEnc => ⟨1, 2, 0⟩ | .ecSumChk => ⟨1, 2, 1⟩ | .ecSumStrip => ⟨1, 2, 2⟩
  | .ecCrcEnc => ⟨1, 3, 0⟩ | .ecCrcChk => ⟨1, 3, 1⟩ | .ecCrcStrip => ⟨1, 3, 2⟩
  | .ecHamEnc => ⟨1, 4, 0⟩ | .ecHamDec => ⟨1, 4, 1⟩
  | .lcNrzEnc => ⟨2, 0, 0⟩ | .lcNrzDec => ⟨2, 0, 1⟩
  | .lcManEnc => ⟨2, 1, 0⟩ | .lcManDec => ⟨2, 1, 1⟩
  | .lcAmiEnc => ⟨2, 2, 0⟩ | .lcAmiDec => ⟨2, 2, 1⟩
  | .cmAskMod => ⟨3, 0, 0⟩ | .cmAskDem => ⟨3, 0, 1⟩
  | .cmFskMod => ⟨3, 1, 0⟩ | .cmFskDem => ⟨3, 1, 1⟩
  | .cmBpskMod => ⟨3, 2, 0⟩ | .cmBpskDem => ⟨3, 2, 1⟩
  | .cmQpskMod => ⟨3, 3, 0⟩ | .cmQpskDem => ⟨3, 3, 1⟩
  | .cm8pskMod => ⟨3, 4, 0⟩ | .cm8pskDem => ⟨3, 4, 1⟩
  | .cmQam16Mod => ⟨3, 5, 0⟩ | .cmQam16Dem => ⟨3, 5, 1⟩
  | .abAskFwd => ⟨4, 0, 0⟩ | .abAskRev => ⟨4, 0, 1⟩
  | .abFskFwd => ⟨4, 1, 0⟩ | .abFskRev => ⟨4, 1, 1⟩
  | .abBpskFwd => ⟨4, 2, 0⟩ | .abBpskRev => ⟨4, 2, 1⟩
  | .abQpskFwd => ⟨4, 3, 0⟩ | .abQpskRev => ⟨4, 3, 1⟩
  | .ab8pskFwd => ⟨4, 4, 0⟩ | .ab8pskRev => ⟨4, 4, 1⟩
  | .abQam16Fwd => ⟨4, 5, 0⟩ | .abQam16Rev => ⟨4, 5, 1⟩
  | .chNoise => ⟨5, 0, 0⟩
  | .txtEnc => ⟨6, 0, 0⟩ | .txtDec => ⟨6, 0, 1⟩
  | .plConfigure => ⟨6, 1, 0⟩ | .plTransmit => ⟨6, 2, 0⟩ | .plInspect => ⟨6, 3, 0⟩

/-- An instruction is well formed when its command fields are legal; every constructor is (`Laws.WellFormed`). -/
def Instr.wf (i : Instr) : Bool := i.fields.wf

/-- A configuration that PL.CONFIGURE lets in on a build: sigma is not negative, and Manchester needs an even S (R247). -/
def PipeCfg.wf (p : Params) (c : PipeCfg) : Bool := !c.sigma.isNeg && (c.line != .manchester || p.samples % 2 == 0)

/-- R279: `FLAG ≠ ESC`. -/
def Params.bytesOk (p : Params) : Bool := p.flag != p.esc

/-- R8: `S ≥ 1`. -/
def Params.samplesOk (p : Params) : Bool := 1 ≤ p.samples

/-- R174, R279: `S` even, where Manchester is used. -/
def Params.manchesterOk (p : Params) : Bool := p.samples % 2 == 0

/-- R279: `F_C ≥ 1` and `S > 4·F_C`, where a carrier is used. -/
def Params.carrierOk (p : Params) : Bool := decide (1 ≤ p.carrierFreq) && decide (4 * p.carrierFreq < p.samples)

/-- R279: `V > 0` and `A_MAX > 0`. -/
def Params.ampsOk (p : Params) : Bool := p.lineAmp.isPos && p.carrierAmp.isPos

/-- R225, R279: `0 < T_BRIDGE < V/2`. -/
def Params.bridgeOk (p : Params) : Bool := p.bridgeThreshold.isPos && p.bridgeThreshold.lt (p.lineAmp.scale (1 / 2))

/-- μ of R194: the mean absolute value of one symbol period of the unit carrier sine. -/
def Params.askMean (p : Params) : Sample :=
  Sample.mean ((List.range p.samples).map fun j => (Sample.sinTurns ((p.carrierFreq * j : ℕ) / (p.samples : ℚ))).abs)

/-- R194, R279: `0 ≤ T_ASK < A_MAX·μ`. -/
def Params.askOk (p : Params) : Bool :=
  !p.askThreshold.isNeg && p.askThreshold.lt (p.askMean.mul p.carrierAmp)

/-- Whether two entries have the same Cartesian point. -/
def SymEntry.samePoint (e f : SymEntry) : Bool := e.x.same f.x && e.y.same f.y

/-- Whether no two of the points of a table are the same (R198 (c)). -/
def SymTab.distinct : SymTab → Bool
  | [] => true
  | e :: l => l.all (fun f => !e.samePoint f) && SymTab.distinct l

/-- R198 for a table of k-bit tuples: 2^k entries with distinct points. -/
def SymTab.wf (k : Nat) (t : SymTab) : Bool := t.length == 2 ^ k && SymTab.distinct t

/-- R198, R279: every symbol table. -/
def Params.tablesOk (p : Params) : Bool :=
  SymTab.wf 1 p.bpskTab && SymTab.wf 2 p.qpskTab && SymTab.wf 3 p.psk8Tab && SymTab.wf 4 p.qam16Tab

/-- The domains of R279, all of them: such a build meets InvalidParameter nowhere. -/
def Params.wf (p : Params) : Bool :=
  p.bytesOk && p.samplesOk && p.manchesterOk && p.carrierOk && p.ampsOk && p.bridgeOk && p.askOk && p.tablesOk

end Sys2Proof
end

