-- ==== Sys2Proof/Decode.lean ====
section
/-! DEFINITION. Decoding and encoding of the command word (R60, R62, R64): total on every byte, a reserved byte refused
by the clause of R64 that reserves it. The block has one command length and no second word (R65). -/

namespace Sys2Proof

/-- Why a command byte is reserved (R64). -/
inductive Reserved where
  /-- `UNIT = 7`. -/
  | unit
  /-- `SCHEME` above the unit's highest listed code. -/
  | scheme
  /-- `FN = 3`. -/
  | function
  /-- `FN = 2` outside EC schemes 0 to 3. -/
  | strip
  /-- `FN = 1` on an operation with one function. -/
  | inverse
deriving DecidableEq, Repr

/-- The unit, bits 7 to 5 (R60). -/
def cmdUnit (c : CmdWord) : Nat := c.toNat / 32

/-- The scheme, bits 4 to 2 (R60). -/
def cmdScheme (c : CmdWord) : Nat := c.toNat / 4 % 8

/-- The function, bits 1 to 0 (R60). -/
def cmdFn (c : CmdWord) : Nat := c.toNat % 4

/-- The FRM commands (R62). -/
def decodeFrm : Nat → Nat → Option Instr
  | 0, 0 => some .frmCcEnc | 0, 1 => some .frmCcDec
  | 1, 0 => some .frmBsEnc | 1, 1 => some .frmBsDec
  | 2, 0 => some .frmBitEnc | 2, 1 => some .frmBitDec
  | _, _ => none

/-- The EC commands (R62). -/
def decodeEc : Nat → Nat → Option Instr
  | 0, 0 => some .ecNoneEnc | 0, 1 => some .ecNoneChk | 0, 2 => some .ecNoneStrip
  | 1, 0 => some .ecParEnc | 1, 1 => some .ecParChk | 1, 2 => some .ecParStrip
  | 2, 0 => some .ecSumEnc | 2, 1 => some .ecSumChk | 2, 2 => some .ecSumStrip
  | 3, 0 => some .ecCrcEnc | 3, 1 => some .ecCrcChk | 3, 2 => some .ecCrcStrip
  | 4, 0 => some .ecHamEnc | 4, 1 => some .ecHamDec
  | _, _ => none

/-- The LC commands (R62). -/
def decodeLc : Nat → Nat → Option Instr
  | 0, 0 => some .lcNrzEnc | 0, 1 => some .lcNrzDec
  | 1, 0 => some .lcManEnc | 1, 1 => some .lcManDec
  | 2, 0 => some .lcAmiEnc | 2, 1 => some .lcAmiDec
  | _, _ => none

/-- The CM commands (R62). -/
def decodeCm : Nat → Nat → Option Instr
  | 0, 0 => some .cmAskMod | 0, 1 => some .cmAskDem
  | 1, 0 => some .cmFskMod | 1, 1 => some .cmFskDem
  | 2, 0 => some .cmBpskMod | 2, 1 => some .cmBpskDem
  | 3, 0 => some .cmQpskMod | 3, 1 => some .cmQpskDem
  | 4, 0 => some .cm8pskMod | 4, 1 => some .cm8pskDem
  | 5, 0 => some .cmQam16Mod | 5, 1 => some .cmQam16Dem
  | _, _ => none

/-- The AB commands (R62). -/
def decodeAb : Nat → Nat → Option Instr
  | 0, 0 => some .abAskFwd | 0, 1 => some .abAskRev
  | 1, 0 => some .abFskFwd | 1, 1 => some .abFskRev
  | 2, 0 => some .abBpskFwd | 2, 1 => some .abBpskRev
  | 3, 0 => some .abQpskFwd | 3, 1 => some .abQpskRev
  | 4, 0 => some .ab8pskFwd | 4, 1 => some .ab8pskRev
  | 5, 0 => some .abQam16Fwd | 5, 1 => some .abQam16Rev
  | _, _ => none

/-- The PL and TXT commands (R62). -/
def decodePl : Nat → Nat → Option Instr
  | 0, 0 => some .txtEnc | 0, 1 => some .txtDec
  | 1, 0 => some .plConfigure
  | 2, 0 => some .plTransmit
  | 3, 0 => some .plInspect
  | _, _ => none

/-- The operation of a unit, scheme and function (R62). -/
def decodeFields (unit scheme fn : Nat) : Option Instr :=
  match unit with
  | 0 => decodeFrm scheme fn
  | 1 => decodeEc scheme fn
  | 2 => decodeLc scheme fn
  | 3 => decodeCm scheme fn
  | 4 => decodeAb scheme fn
  | 5 => if scheme = 0 ∧ fn = 0 then some .chNoise else none
  | 6 => decodePl scheme fn
  | _ => none

/-- The clause of R64 that reserves a command which R62 does not list. -/
def reservedBy (unit scheme fn : Nat) : Reserved :=
  if unit = 7 then .unit
  else if CmdFields.maxScheme unit < scheme then .scheme
  else if fn = 3 then .function
  else if fn = 2 then .strip
  else .inverse

/-- The operation a command byte selects, or the reason it is reserved. -/
def decode (c : CmdWord) : Except Reserved Instr :=
  match decodeFields (cmdUnit c) (cmdScheme c) (cmdFn c) with
  | some i => .ok i
  | none => .error (reservedBy (cmdUnit c) (cmdScheme c) (cmdFn c))

/-- The command byte of an operation, from R62's table. -/
def encode : Instr → CmdWord
  | .frmCcEnc => 0x00#8 | .frmCcDec => 0x01#8 | .frmBsEnc => 0x04#8 | .frmBsDec => 0x05#8
  | .frmBitEnc => 0x08#8 | .frmBitDec => 0x09#8
  | .ecNoneEnc => 0x20#8 | .ecNoneChk => 0x21#8 | .ecNoneStrip => 0x22#8
  | .ecParEnc => 0x24#8 | .ecParChk => 0x25#8 | .ecParStrip => 0x26#8
  | .ecSumEnc => 0x28#8 | .ecSumChk => 0x29#8 | .ecSumStrip => 0x2A#8
  | .ecCrcEnc => 0x2C#8 | .ecCrcChk => 0x2D#8 | .ecCrcStrip => 0x2E#8
  | .ecHamEnc => 0x30#8 | .ecHamDec => 0x31#8
  | .lcNrzEnc => 0x40#8 | .lcNrzDec => 0x41#8 | .lcManEnc => 0x44#8 | .lcManDec => 0x45#8
  | .lcAmiEnc => 0x48#8 | .lcAmiDec => 0x49#8
  | .cmAskMod => 0x60#8 | .cmAskDem => 0x61#8 | .cmFskMod => 0x64#8 | .cmFskDem => 0x65#8
  | .cmBpskMod => 0x68#8 | .cmBpskDem => 0x69#8 | .cmQpskMod => 0x6C#8 | .cmQpskDem => 0x6D#8
  | .cm8pskMod => 0x70#8 | .cm8pskDem => 0x71#8 | .cmQam16Mod => 0x74#8 | .cmQam16Dem => 0x75#8
  | .abAskFwd => 0x80#8 | .abAskRev => 0x81#8 | .abFskFwd => 0x84#8 | .abFskRev => 0x85#8
  | .abBpskFwd => 0x88#8 | .abBpskRev => 0x89#8 | .abQpskFwd => 0x8C#8 | .abQpskRev => 0x8D#8
  | .ab8pskFwd => 0x90#8 | .ab8pskRev => 0x91#8 | .abQam16Fwd => 0x94#8 | .abQam16Rev => 0x95#8
  | .chNoise => 0xA0#8
  | .txtEnc => 0xC0#8 | .txtDec => 0xC1#8
  | .plConfigure => 0xC4#8 | .plTransmit => 0xC8#8 | .plInspect => 0xCC#8

/-- The operation the decoder reads from a table row's bits: a command is one byte, bit 0 its least significant bit, and
`nbits` is 8 for every row (R60). -/
def decodeTableWord (nbits w : Nat) : Option Instr :=
  if nbits ≤ 8 then
    match decode (BitVec.ofNat 8 (w % 2 ^ nbits)) with
    | .ok i => some i
    | .error _ => none
  else none

end Sys2Proof
end

