-- ==== Sys2Proof/Machine/Bits.lean ====
section
/-! DEFINITION. Sequences: values and fields, most significant bit first (R10, R11, R43), and the Bit/Byte utilities
(R47 to R51). -/

namespace Sys2Proof.Machine

/-- n zeros (R10). -/
def zeros (n : Nat) : BitSeq := List.replicate n false

/-- `s[i..j)`, the bounds clipped to the sequence (R10). -/
def slice {α : Type} (s : List α) (i j : Nat) : List α := (s.take j).drop i

/-- `be_N(v)`: the n binary digits of v, most significant first (R11). -/
def beBits : Nat → Nat → BitSeq
  | 0, _ => []
  | n + 1, v => v.testBit n :: beBits n v

/-- `val(s)`: the value of a bit sequence, most significant bit first (R11). -/
def val (s : BitSeq) : Nat := s.foldl (fun a x => 2 * a + x.toNat) 0

/-- `popcount(s)` (R13). -/
def popcount (s : BitSeq) : Nat := s.countP id

/-- ⌈a / b⌉. -/
def ceilDiv (a b : Nat) : Nat := (a + b - 1) / b

/-- The first n groups of k elements of a sequence. -/
def groupsOf {α : Type} (k : Nat) : Nat → List α → List (List α)
  | 0, _ => []
  | n + 1, s => s.take k :: groupsOf k n (s.drop k)

/-- `nbytes(b)`, the number of bytes with a short last one counted (R47). -/
def nbytes (b : BitSeq) : Nat := ceilDiv b.length 8

/-- `group_pad(b, k)`: the k-bit groups, the last one padded with zeros (R50). -/
def groupPad (b : BitSeq) (k : Nat) : List BitSeq :=
  groupsOf k (ceilDiv b.length k) (b ++ zeros (k * ceilDiv b.length k - b.length))

/-- `chunk_pad(b)`: the ByteGroups, the last one padded with zeros (R47). -/
def chunkPad (b : BitSeq) : List BitSeq := groupPad b 8

/-- The complete k-element groups of a sequence, a short last one dropped (R48, R51). -/
def complete {α : Type} (k : Nat) (s : List α) : List (List α) := groupsOf k (s.length / k) s

/-- `chunk_trunc(b)`: the complete ByteGroups; its warning is `partialUnit 8` (R48). -/
def chunkTrunc (b : BitSeq) : List BitSeq := complete 8 b

/-- `pad16(b)`: b padded with zeros to a multiple of 16 bits (R49). -/
def pad16 (b : BitSeq) : BitSeq := b ++ zeros ((16 - b.length % 16) % 16)

/-- `blocks(x, S)`: the complete S-sample blocks; its warning is `partialUnit S` (R51). -/
def blocks {α : Type} (x : List α) (s : Nat) : List (List α) := complete s x

end Sys2Proof.Machine
end

