-- ==== Sys2Proof/Machine/State.lean ====
section
/-! DEFINITION. The machine's state (INVENTORY.md, State): the buffers of R22, the control, status and flag registers of
R23 to R28, the in-flight transmission of R29 and the completion event of R287; the command result that stands for a
fault (R280); and the model's own fields, the build, the noise input and the host's script. State after reset: R300. -/

namespace Sys2Proof.Machine

/-- `PSTATE` (R24). -/
inductive PState where
  | idle | configuring | transmitting | receiving
deriving DecidableEq, Repr, Inhabited

/-- The faults of R272. -/
inductive FaultCode where
  | invalidCommand | invalidConfig | busy | notConfigured | lengthOverflow | invalidChar | invalidParameter
deriving DecidableEq, Repr, Inhabited

/-- The fields that InvalidConfig names, in the order they are checked (R274). -/
inductive CfgField where
  | line | carrier | framing | ec | reserved | sigma
deriving DecidableEq, Repr, Inhabited

/-- The parameters that InvalidParameter names (R272; log 13). -/
inductive ParamName where
  | esc | samples | carrierFreq | symtab (s : Scheme)
deriving DecidableEq, Repr, Inhabited

/-- The one information value a fault carries (R272). -/
inductive FaultInfo where
  | none
  | command (c : CmdWord)
  | index (n : Nat)
  | field (f : CfgField)
  | pstate (p : PState)
  | count (c : Nat)
  | char (i : Nat)
  | param (p : ParamName)
deriving DecidableEq, Repr, Inhabited

/-- A raised fault: its code and its information (R272, R280). -/
structure Trap where
  code : FaultCode
  info : FaultInfo
deriving DecidableEq, Repr, Inhabited

/-- What the host received from its last command or read of `STATUS`: after a fault of a command the pair (code,
information) in place of `OUT` (R280; log 12). -/
inductive CmdResult where
  /-- No command has been issued yet. -/
  | none
  /-- The command was carried out (for PL.TRANSMIT: accepted). -/
  | done
  /-- The command raised a fault. -/
  | fault (t : Trap)
  /-- The read of `STATUS` answered this status (R26). -/
  | status (st : Status)
  /-- The read of `STATUS` was faulted: there is no status yet (R26, R300; log 18). R69 has no code for it. -/
  | noStatus
deriving DecidableEq, Repr, Inhabited

/-- What the completion event carries (R252, R254, R281). -/
inductive Completion where
  /-- `DONE(RTEXT, STATUS)`. -/
  | done (text : Text) (status : Status)
  /-- The run ended in a fault (R254). -/
  | failed (t : Trap)
deriving DecidableEq, Repr, Inhabited

/-- The contents of `OUT`: bits, samples or characters, by operation (R22, R40; log 11). -/
inductive Buf where
  | empty
  | bits (b : BitSeq)
  | samples (x : List Sample)
  | text (t : Text)
deriving DecidableEq, Repr, Inhabited

/-- A `SIGMA` operand: a real, or something that is not a number (R66, R247). -/
inductive SigmaArg where
  | real (q : Sample)
  | notReal
deriving DecidableEq, Repr, Inhabited

/-- An operand the host writes to `IN` (R22, R40, R60; log 10). -/
inductive Operand where
  | bits (b : BitSeq)
  | samples (x : List Sample)
  | text (t : Text)
  | cfgw (w : CfgWord)
  | sigma (a : SigmaArg)
  | index (n : Nat)
deriving DecidableEq, Repr, Inhabited

/-- One action of the host (R56, R244; log 14). -/
inductive HostAct where
  /-- The host writes an operand to `IN`. -/
  | present (o : Operand)
  /-- The host hands the last `OUT` back as the next `IN`. -/
  | chain
  /-- The host presents a command word (R60). -/
  | command (c : CmdWord)
  /-- The host does nothing for one step: the sequencer moves if a transmission is in flight. -/
  | pass
  /-- The host reads `STATUS` (R26). -/
  | readStatus
deriving DecidableEq, Repr, Inhabited

/-- An in-flight transmission: the stage to run next (R249) with the private stage outputs it has so far (R29, R250).
s0, s1, s2, s3 are the signals that will be published as SIG_BASE, SIG_MOD, SIG_RX, SIG_DEMOD. -/
inductive Flight where
  | t1 (text : Text)
  | t2 (b0 : BitSeq)
  | t3 (b1 : BitSeq)
  | t4 (b2 : BitSeq)
  | t5 (s0 : List Sample)
  | t6 (s0 s1 : List Sample)
  | r1 (s0 s1 s2 : List Sample)
  | r2 (s0 s1 s2 s3 : List Sample)
  | r3 (s0 s1 s2 s3 : List Sample) (b3 : BitSeq)
  | r4 (s0 s1 s2 s3 : List Sample) (b4 : BitSeq)
  | r5 (s0 s1 s2 s3 : List Sample) (b5 : BitSeq) (status : Status)
  | r6 (s0 s1 s2 s3 : List Sample) (text : Text) (status : Status)
deriving DecidableEq, Repr, Inhabited

/-- The machine stops with a fault: there is no such fault. A fault of R272, and the fault of an early read of `STATUS`
(R26; log 18), is what the host receives in `result`, and the host goes on (R280). Safe: no step stops. -/
inductive Fault where
deriving DecidableEq, Repr

/-- A command has no meaning. -/
inductive Refusal where
  /-- Raised by an arm of exec whose operation has no meaning yet; no arm is one. Safe: nothing is claimed of it. -/
  | notModelled (mnemonic : String)
deriving DecidableEq, Repr, Inhabited

/-- The state of the machine. -/
structure State where
  /-- `IN`, as a bit buffer (R22, R40). -/
  inBits : BitSeq
  /-- `IN`, as a sample buffer (R22, R40). -/
  inSig : List Sample
  /-- `IN`, as a character buffer (R22, R40). -/
  inText : Text
  /-- `IN`, as a configuration word (R60, R66). -/
  inCfgw : CfgWord
  /-- `IN`, as the separate real SIGMA of PL.CONFIGURE (R66), and the sigma given with a stand-alone CH.NOISE (R237). -/
  inSigma : SigmaArg
  /-- `IN`, as an inspection index (R60, R70). -/
  inIndex : Nat
  /-- `OUT` (R22). -/
  out : Buf
  /-- What the host received from its last command or read of `STATUS` (R26, R280). -/
  result : CmdResult
  /-- `PSTATE` (R24). -/
  pstate : PState
  /-- `CFG` (R23). -/
  cfg : PipeCfg
  /-- `CFG_VALID` (R25). -/
  cfgValid : Bool
  /-- `SNAP` (R28). -/
  snap : PipeCfg
  /-- `STATUS`, or no status yet (R26, R300). -/
  status : Option Status
  /-- The flag `OK` (R27). -/
  ok : Bool
  /-- The flag `CORRECTED` (R27). -/
  corrected : Bool
  /-- The sticky flag `WARN` (R27, R284). -/
  warn : Bool
  /-- `SIG_BASE` (R22). -/
  sigBase : List Sample
  /-- `SIG_MOD` (R22). -/
  sigMod : List Sample
  /-- `SIG_RX` (R22). -/
  sigRx : List Sample
  /-- `SIG_DEMOD` (R22). -/
  sigDemod : List Sample
  /-- `RTEXT` (R22). -/
  rtext : Text
  /-- The in-flight transmission (R29). -/
  flight : Option Flight
  /-- The completion event, in the state that the raising step leaves and in no other (R252, R287; log 16). -/
  event : Option Completion
  /-- The MODEL's own: the build (R8, R31; log 3). No step writes it. -/
  params : Params
  /-- The MODEL's own: the noise draws the outside supplies, used from the front (R30, R237; log 7). -/
  noise : List Sample
  /-- The MODEL's own: how many draws were taken beyond the supplied ones (log 7). -/
  noiseIx : Nat
  /-- The MODEL's own: what the host does next (log 14). -/
  hostActs : List HostAct
deriving DecidableEq, Repr, Inhabited

/-- The configuration that stands in `CFG` and `SNAP` at reset: the spec gives none and nothing reads it before it is
written (R300; log 8). -/
def PipeCfg.atReset : PipeCfg where
  line := .nrz
  carrier := some .ask
  carrierEn := false
  framing := .characterCount
  ec := .none
  sigma := Sample.zero

/-- The machine right after reset (R300). -/
def State.reset : State where
  inBits := []
  inSig := []
  inText := []
  inCfgw := 0#16
  inSigma := .real Sample.zero
  inIndex := 0
  out := .empty
  result := .none
  pstate := .idle
  cfg := PipeCfg.atReset
  cfgValid := false
  snap := PipeCfg.atReset
  status := none
  ok := false
  corrected := false
  warn := false
  sigBase := []
  sigMod := []
  sigRx := []
  sigDemod := []
  rtext := []
  flight := none
  event := none
  params := Config.build
  noise := []
  noiseIx := 0
  hostActs := []

end Sys2Proof.Machine
end

