-- ==== Sys2Proof/Machine/Flags.lean ====
section
/-! DEFINITION. The flags (R27): the warning condition of every truncating operation (R284), and the writes of WARN, OK
and CORRECTED. BUSY is a view of PSTATE. The verdicts that OK holds are computed in Machine/ErrorControl.lean. -/

namespace Sys2Proof.Machine

/-- R284: whether a sequence of n elements does not end at a whole unit. -/
def partialUnit (unit n : Nat) : Bool := n % unit != 0

/-- `BUSY` (R27): PSTATE is not Idle. -/
def State.busy (s : State) : Bool := s.pstate != .idle

/-- `warn(Desync)` where w holds: WARN is sticky, it is set and never cleared here (R13, R27, R284). -/
def State.warnIf (s : State) (w : Bool) : State := { s with warn := s.warn || w }

/-- `OK` takes a verdict (R27). -/
def State.setOk (s : State) (v : Bool) : State := { s with ok := v }

/-- `CORRECTED` takes a value (R27). -/
def State.setCorrected (s : State) (v : Bool) : State := { s with corrected := v }

end Sys2Proof.Machine
end

