-- ==== Sys2Proof/Machine/Ops.lean ====
section
/-! DEFINITION. The shared operations: taking a fault (R280), finishing an operation, and drawing noise (R237). -/

namespace Sys2Proof.Machine

/-- What a stage function answers: a fault, or its output and whether it warns (R48, R51). -/
abbrev Staged (α : Type) := Except Trap (α × Bool)

/-- Taking a fault (R280): the command's result is the pair (code, information) in place of OUT, and nothing else
changes: no state is saved, control goes nowhere, no mode changes. There is no return operation (R282). -/
def State.raise (s : State) (t : Trap) : State := { s with result := .fault t }

/-- A command is carried out. -/
def State.done (s : State) : State := { s with result := .done }

/-- A command leaves its output in OUT. -/
def State.emit (s : State) (b : Buf) : State := { s with out := b, result := .done }

/-- The end of a stand-alone operation: its fault, or its output in OUT and its warning in WARN. -/
def State.finish (s : State) : Staged Buf → State
  | .error t => s.raise t
  | .ok (b, w) => (s.warnIf w).emit b

/-- A stage function's bit output as the contents of OUT. -/
def asBits : Staged BitSeq → Staged Buf
  | .error t => .error t
  | .ok (b, w) => .ok (.bits b, w)

/-- A stage function's signal output as the contents of OUT. -/
def asSamples : Staged (List Sample) → Staged Buf
  | .error t => .error t
  | .ok (x, w) => .ok (.samples x, w)

/-- The next n noise draws: the supplied ones first, then free values (R237; log 7). -/
def State.draws (s : State) (n : Nat) : List Sample :=
  s.noise.take n ++ (List.range (n - s.noise.length)).map fun i => Config.noise (s.noiseIx + i)

/-- The state after n noise draws. -/
def State.afterDraws (s : State) (n : Nat) : State :=
  { s with noise := s.noise.drop n, noiseIx := s.noiseIx + (n - s.noise.length) }

end Sys2Proof.Machine
end

