-- ==== Sys2Proof/Machine/Operands.lean ====
section
/-! DEFINITION. The operand forms: what the host writes to IN (R22, R60), the configuration word (R66, R274), the
inspection index (R70), the read of STATUS (R26), and the numeric codes of statuses and faults (R68, R69). -/

namespace Sys2Proof.Machine

/-- The host writes an operand to IN (R22). -/
def State.present (s : State) : Operand → State
  | .bits b => { s with inBits := b }
  | .samples x => { s with inSig := x }
  | .text t => { s with inText := t }
  | .cfgw w => { s with inCfgw := w }
  | .sigma a => { s with inSigma := a }
  | .index n => { s with inIndex := n }

/-- The host hands OUT back as the next IN, in the kind that OUT has. -/
def State.chain (s : State) : State :=
  match s.out with
  | .empty => s
  | .bits b => s.present (.bits b)
  | .samples x => s.present (.samples x)
  | .text t => s.present (.text t)

/-- The field of a word from bit lo, n bits wide (R12). -/
def cfgBits (w : CfgWord) (lo n : Nat) : Nat := w.toNat / 2 ^ lo % 2 ^ n

/-- `CFGW[1:0]` (R66). -/
def lineOf : Nat → Except CfgField LineCode
  | 0 => .ok .nrz
  | 1 => .ok .manchester
  | 2 => .ok .bipolar
  | _ => .error .line

/-- `CFGW[4:2]` (R66). -/
def carrierOf : Nat → Except CfgField Carrier
  | 0 => .ok (some .ask)
  | 1 => .ok (some .fsk)
  | 2 => .ok (some .bpsk)
  | 3 => .ok (some .qpsk)
  | 4 => .ok (some .psk8)
  | 5 => .ok (some .qam16)
  | 6 => .ok none
  | _ => .error .carrier

/-- `CFGW[7:6]` (R66). -/
def framingOf : Nat → Except CfgField Framing
  | 0 => .ok .characterCount
  | 1 => .ok .byteStuffing
  | 2 => .ok .bitStuffing
  | _ => .error .framing

/-- `CFGW[10:8]` (R66). -/
def ecOf : Nat → Except CfgField ErrorControl
  | 0 => .ok .none
  | 1 => .ok .parity
  | 2 => .ok .checksum
  | 3 => .ok .crc
  | 4 => .ok .hamming
  | _ => .error .ec

/-- `CFGW[15:11]` must be 0 (R66). -/
def reservedOf : Nat → Except CfgField Unit
  | 0 => .ok ()
  | _ => .error .reserved

/-- `SIGMA` must be a real that is not negative (R66). -/
def sigmaOf : SigmaArg → Except CfgField Sample
  | .real q => if q.isNeg then .error .sigma else .ok q
  | .notReal => .error .sigma

/-- The configuration record of PL.CONFIGURE, or the first offending field, in the order LINE, CARRIER, FRAMING, EC,
reserved, SIGMA (R66, R274). -/
def configOf (w : CfgWord) (a : SigmaArg) : Except CfgField PipeCfg := do
  let line ← lineOf (cfgBits w 0 2)
  let carrier ← carrierOf (cfgBits w 2 3)
  let framing ← framingOf (cfgBits w 6 2)
  let ec ← ecOf (cfgBits w 8 3)
  reservedOf (cfgBits w 11 5)
  let sigma ← sigmaOf a
  return { line, carrier, carrierEn := cfgBits w 5 1 == 1, framing, ec, sigma }

/-- The signal buffer of an inspection index (R70), none above 3. -/
def State.signal (s : State) : Nat → Option (List Sample)
  | 0 => some s.sigBase
  | 1 => some s.sigMod
  | 2 => some s.sigRx
  | 3 => some s.sigDemod
  | _ => none

/-- The host reads STATUS: it receives the status, or the read is faulted where none was published (R26, R300; log 18). -/
def State.readStatus (s : State) : State :=
  { s with result := match s.status with
      | some st => .status st
      | none => .noStatus }

/-- The numeric code of a status (R68). -/
def statusCode : Status → Nat
  | .success => 0
  | .parityError => 1
  | .checksumError => 2
  | .crcError => 3
  | .hammingOk => 4
  | .noVerification => 5

/-- The string of a status, which is its identity (R68). -/
def statusText : Status → String
  | .success => "Success"
  | .parityError => "Parity Error"
  | .checksumError => "Checksum Error"
  | .crcError => "CRC Error"
  | .hammingOk => "Hamming OK"
  | .noVerification => "No Verification"

/-- The numeric code of a fault (R69). -/
def faultNumber : FaultCode → Nat
  | .invalidCommand => 1
  | .invalidConfig => 2
  | .busy => 3
  | .notConfigured => 4
  | .lengthOverflow => 5
  | .invalidChar => 6
  | .invalidParameter => 7

/-- Whether the carrier stage of a transmission runs: CARRIER_EN = 1 and CARRIER is not none (R248); the scheme if so. -/
def carrierOn (c : PipeCfg) : Option Scheme := if c.carrierEn then c.carrier else none

end Sys2Proof.Machine
end

