-- ==== Sys2Proof/Machine/Carrier.lean ====
section
/-! DEFINITION. The carrier-modulation operations (43_carrier_modulation.md, R190 to R214). Angles are in turns: θ(f, j)
is f·j/S turns (R191). -/

namespace Sys2Proof.Machine

/-- R191, R272: a carrier needs F_C ≥ 1 and S > 4·F_C (log 13). -/
def carrierParams (p : Params) : Except Trap Unit :=
  if p.carrierFreq = 0 then .error ⟨.invalidParameter, .param .carrierFreq⟩
  else if p.samples ≤ 4 * p.carrierFreq then .error ⟨.invalidParameter, .param .samples⟩
  else .ok ()

/-- θ(f, j), in turns (R191). -/
def thetaTurns (p : Params) (f j : Nat) : ℚ := ((f * j : ℕ) : ℚ) / (p.samples : ℚ)

/-- sin θ(f, j) (R191). -/
def sinRef (p : Params) (f j : Nat) : Sample := Sample.sinTurns (thetaTurns p f j)

/-- cos θ(f, j) (R191). -/
def cosRef (p : Params) (f j : Nat) : Sample := Sample.cosTurns (thetaTurns p f j)

/-- One symbol period of samples, by the sample's number in it (R190, R191). -/
def period (p : Params) (w : Nat → Sample) : List Sample := (List.range p.samples).map w

/-- Σ_j B[j]·w(j), the correlation of a block with a reference (R197, R200). -/
def correlate (w : Nat → Sample) (b : List Sample) : Sample :=
  Sample.sum (b.mapIdx fun j x => x.mul (w j))

/-- The ASK waveform (R193). -/
def askSignal (p : Params) (b : BitSeq) : List Sample :=
  b.flatMap fun x =>
    period p fun j => if x then (sinRef p p.carrierFreq j).mul p.carrierAmp else Sample.zero

/-- The ASK decisions (R194): the mean absolute sample against T_ASK. -/
def askBits (p : Params) (x : List Sample) : BitSeq :=
  (blocks x p.samples).map fun blk => p.askThreshold.lt (Sample.mean (blk.map Sample.abs))

/-- The FSK waveform (R195, R196). -/
def fskSignal (p : Params) (b : BitSeq) : List Sample :=
  b.flatMap fun x =>
    period p fun j => (sinRef p (if x then 2 * p.carrierFreq else p.carrierFreq) j).mul p.carrierAmp

/-- The FSK decisions (R197): the greater correlation magnitude, equality deciding 0. -/
def fskBits (p : Params) (x : List Sample) : BitSeq :=
  (blocks x p.samples).map fun blk =>
    (correlate (sinRef p p.carrierFreq) blk).abs.lt (correlate (sinRef p (2 * p.carrierFreq)) blk).abs

/-- The width k of a scheme's symbol (R190, R198). -/
def symbolWidth : Scheme → Nat
  | .ask | .fsk | .bpsk => 1
  | .qpsk => 2
  | .psk8 => 3
  | .qam16 => 4

/-- `SYMTAB[s]` (R198); ASK and FSK have none. -/
def symTab (p : Params) : Scheme → SymTab
  | .ask | .fsk => []
  | .bpsk => p.bpskTab
  | .qpsk => p.qpskTab
  | .psk8 => p.psk8Tab
  | .qam16 => p.qam16Tab

/-- R198, R272: a table is exhaustive over its width (log 13). -/
def tableParams (p : Params) (s : Scheme) : Except Trap Unit :=
  match carrierParams p with
  | .error t => .error t
  | .ok _ =>
    if (symTab p s).length = 2 ^ symbolWidth s then .ok ()
    else .error ⟨.invalidParameter, .param (.symtab s)⟩

/-- One symbol of the table modulator (R199): a·cos(θ + φ) is a·cos φ·cos θ − a·sin φ·sin θ. -/
def tabWave (p : Params) (e : SymEntry) : List Sample :=
  period p fun j => (((cosRef p p.carrierFreq j).mul e.x).sub ((sinRef p p.carrierFreq j).mul e.y)).mul p.carrierAmp

/-- The table modulator `tab_mod` (R199). -/
def tabSignal (p : Params) (s : Scheme) (b : BitSeq) : List Sample :=
  (groupPad b (symbolWidth s)).flatMap fun g => tabWave p ((symTab p s).getD (val g) default)

/-- The in-phase sum I of a block (R200). -/
def inPhase (p : Params) (b : List Sample) : Sample :=
  (correlate (cosRef p p.carrierFreq) b).scale (2 / (p.samples : ℚ))

/-- The quadrature sum Q of a block, against the negative sine (R200). -/
def quadrature (p : Params) (b : List Sample) : Sample :=
  (correlate (fun j => (sinRef p p.carrierFreq j).neg) b).scale (2 / (p.samples : ℚ))

/-- The squared distance of the measured (I, Q) from A_MAX times an entry's point: A_MAX² times the distance of R200's
normalised point, so that the least distance is the same entry's (A_MAX > 0, R8). -/
def distSq (p : Params) (i q : Sample) (e : SymEntry) : Sample :=
  let di := i.sub (p.carrierAmp.mul e.x)
  let dq := q.sub (p.carrierAmp.mul e.y)
  (di.mul di).add (dq.mul dq)

/-- The scan of the remaining entries from tuple value g on: the first minimum wins (R200). -/
def nearestFrom (p : Params) (i q : Sample) : Nat → SymTab → Nat → Sample → Nat
  | _, [], best, _ => best
  | g, e :: l, best, d =>
    if (distSq p i q e).lt d then nearestFrom p i q (g + 1) l g (distSq p i q e) else nearestFrom p i q (g + 1) l best d

/-- The tuple value of the entry nearest to a measured point, in ascending value (R200, D30). -/
def nearest (p : Params) (i q : Sample) : SymTab → Nat
  | [] => 0
  | e :: l => nearestFrom p i q 1 l 0 (distSq p i q e)

/-- One decision of the table demodulator: the tuple of the entry nearest to the measured point. R200's detour through
amplitude and phase is the identity over the reals and is left out (DEDUCED, log 20). -/
def tabDecide (p : Params) (s : Scheme) (blk : List Sample) : BitSeq :=
  beBits (symbolWidth s) (nearest p (inPhase p blk) (quadrature p blk) (symTab p s))

/-- The table demodulator `tab_dem` (R200). -/
def tabBits (p : Params) (s : Scheme) (x : List Sample) : BitSeq :=
  (blocks x p.samples).flatMap (tabDecide p s)

/-- The parameters a scheme needs (R191, R198, R272). -/
def schemeParams (p : Params) : Scheme → Except Trap Unit
  | .ask | .fsk => carrierParams p
  | s => tableParams p s

/-- The waveform of a scheme. -/
def schemeSignal (p : Params) (s : Scheme) (b : BitSeq) : List Sample :=
  match s with
  | .ask => askSignal p b
  | .fsk => fskSignal p b
  | s => tabSignal p s b

/-- The decisions of a scheme. -/
def schemeBits (p : Params) (s : Scheme) (x : List Sample) : BitSeq :=
  match s with
  | .ask => askBits p x
  | .fsk => fskBits p x
  | s => tabBits p s x

/-- `CM.s.MOD` (R190). -/
def carrierMod (p : Params) (s : Scheme) (b : BitSeq) : Staged (List Sample) :=
  match schemeParams p s with
  | .error t => .error t
  | .ok _ => .ok (schemeSignal p s b, false)

/-- `CM.s.DEM` (R190): it warns of a partial last block. -/
def carrierDem (p : Params) (s : Scheme) (x : List Sample) : Staged BitSeq :=
  match schemeParams p s with
  | .error t => .error t
  | .ok _ => .ok (schemeBits p s x, partialUnit p.samples x.length)

/-- CM.ASK.MOD (R193). -/
def execCmAskMod (s : State) : Host.Outcome State Fault Refusal :=
  .next (s.finish (asSamples (carrierMod s.params .ask s.inBits)))

/-- CM.ASK.DEM (R194). -/
def execCmAskDem (s : State) : Host.Outcome State Fault Refusal :=
  .next (s.finish (asBits (carrierDem s.params .ask s.inSig)))

/-- CM.FSK.MOD (R196). -/
def execCmFskMod (s : State) : Host.Outcome State Fault Refusal :=
  .next (s.finish (asSamples (carrierMod s.params .fsk s.inBits)))

/-- CM.FSK.DEM (R197). -/
def execCmFskDem (s : State) : Host.Outcome State Fault Refusal :=
  .next (s.finish (asBits (carrierDem s.params .fsk s.inSig)))

/-- CM.BPSK.MOD (R203). -/
def execCmBpskMod (s : State) : Host.Outcome State Fault Refusal :=
  .next (s.finish (asSamples (carrierMod s.params .bpsk s.inBits)))

/-- CM.BPSK.DEM (R204). -/
def execCmBpskDem (s : State) : Host.Outcome State Fault Refusal :=
  .next (s.finish (asBits (carrierDem s.params .bpsk s.inSig)))

/-- CM.QPSK.MOD (R205). -/
def execCmQpskMod (s : State) : Host.Outcome State Fault Refusal :=
  .next (s.finish (asSamples (carrierMod s.params .qpsk s.inBits)))

/-- CM.QPSK.DEM (R206). -/
def execCmQpskDem (s : State) : Host.Outcome State Fault Refusal :=
  .next (s.finish (asBits (carrierDem s.params .qpsk s.inSig)))

/-- CM.8PSK.MOD (R207). -/
def execCm8pskMod (s : State) : Host.Outcome State Fault Refusal :=
  .next (s.finish (asSamples (carrierMod s.params .psk8 s.inBits)))

/-- CM.8PSK.DEM (R208). -/
def execCm8pskDem (s : State) : Host.Outcome State Fault Refusal :=
  .next (s.finish (asBits (carrierDem s.params .psk8 s.inSig)))

/-- CM.QAM16.MOD (R209). -/
def execCmQam16Mod (s : State) : Host.Outcome State Fault Refusal :=
  .next (s.finish (asSamples (carrierMod s.params .qam16 s.inBits)))

/-- CM.QAM16.DEM (R210). -/
def execCmQam16Dem (s : State) : Host.Outcome State Fault Refusal :=
  .next (s.finish (asBits (carrierDem s.params .qam16 s.inSig)))

end Sys2Proof.Machine
end

