-- ==== Sys2Proof/Machine/LineCoding.lean ====
section
/-! DEFINITION. The line-coding operations (42_line_coding.md, R170 to R183). Every comparison is strict, and equality
decides 0 (R171). -/

namespace Sys2Proof.Machine

/-- `+V` (R170). -/
def plusV (p : Params) : Sample := p.lineAmp

/-- `−V` (R170). -/
def minusV (p : Params) : Sample := p.lineAmp.neg

/-- The NRZ-Polar encoder (R172). -/
def nrzEncode (p : Params) (b : BitSeq) : List Sample :=
  b.flatMap fun x => List.replicate p.samples (if x then plusV p else minusV p)

/-- The NRZ-Polar decoder (R173). -/
def nrzDecode (p : Params) (x : List Sample) : BitSeq :=
  (blocks x p.samples).map fun blk => (Sample.mean blk).isPos

/-- R174: Manchester needs an even S. -/
def manchesterParams (p : Params) : Except Trap Unit :=
  if p.samples % 2 = 0 then .ok () else .error ⟨.invalidParameter, .param .samples⟩

/-- The Manchester signal (R175): 1 is high, then low. -/
def manSignal (p : Params) (b : BitSeq) : List Sample :=
  let h := p.samples / 2
  b.flatMap fun x =>
    if x then List.replicate h (plusV p) ++ List.replicate h (minusV p)
    else List.replicate h (minusV p) ++ List.replicate h (plusV p)

/-- The Manchester decisions (R176): 1 where the first half's mean is greater. -/
def manBits (p : Params) (x : List Sample) : BitSeq :=
  let h := p.samples / 2
  (blocks x p.samples).map fun blk => (Sample.mean (slice blk h p.samples)).lt (Sample.mean (slice blk 0 h))

/-- The Manchester encoder (R175). -/
def manEncode (p : Params) (b : BitSeq) : Staged (List Sample) :=
  match manchesterParams p with
  | .error t => .error t
  | .ok _ => .ok (manSignal p b, false)

/-- The Manchester decoder (R176). -/
def manDecode (p : Params) (x : List Sample) : Staged BitSeq :=
  match manchesterParams p with
  | .error t => .error t
  | .ok _ => .ok (manBits p x, partialUnit p.samples x.length)

/-- The AMI signal (R178): marks alternate; `pol` is W.pol, true for +1, +1 at the start (R21, R177). -/
def amiMarks (p : Params) : Bool → BitSeq → List Sample
  | _, [] => []
  | pol, false :: b => List.replicate p.samples Sample.zero ++ amiMarks p pol b
  | pol, true :: b => List.replicate p.samples (if pol then plusV p else minusV p) ++ amiMarks p (!pol) b

/-- The AMI encoder (R178). -/
def amiEncode (p : Params) (b : BitSeq) : List Sample := amiMarks p true b

/-- The AMI decoder (R179): amplitude only, against V/2. -/
def amiDecode (p : Params) (x : List Sample) : BitSeq :=
  (blocks x p.samples).map fun blk => (p.lineAmp.scale (1 / 2)).lt (Sample.mean (blk.map Sample.abs))

/-- `LC.ENC` of a line code (R72). -/
def lineEncode (p : Params) (c : LineCode) (b : BitSeq) : Staged (List Sample) :=
  match c with
  | .nrz => .ok (nrzEncode p b, false)
  | .manchester => manEncode p b
  | .bipolar => .ok (amiEncode p b, false)

/-- `LC.DEC` of a line code (R72). -/
def lineDecode (p : Params) (c : LineCode) (x : List Sample) : Staged BitSeq :=
  match c with
  | .nrz => .ok (nrzDecode p x, partialUnit p.samples x.length)
  | .manchester => manDecode p x
  | .bipolar => .ok (amiDecode p x, partialUnit p.samples x.length)

/-- LC.NRZ.ENC (R172). -/
def execLcNrzEnc (s : State) : Host.Outcome State Fault Refusal := .next (s.emit (.samples (nrzEncode s.params s.inBits)))

/-- LC.NRZ.DEC (R173). -/
def execLcNrzDec (s : State) : Host.Outcome State Fault Refusal :=
  .next ((s.warnIf (partialUnit s.params.samples s.inSig.length)).emit (.bits (nrzDecode s.params s.inSig)))

/-- LC.MAN.ENC (R175). -/
def execLcManEnc (s : State) : Host.Outcome State Fault Refusal :=
  .next (s.finish (asSamples (manEncode s.params s.inBits)))

/-- LC.MAN.DEC (R176). -/
def execLcManDec (s : State) : Host.Outcome State Fault Refusal := .next (s.finish (asBits (manDecode s.params s.inSig)))

/-- LC.AMI.ENC (R178). -/
def execLcAmiEnc (s : State) : Host.Outcome State Fault Refusal := .next (s.emit (.samples (amiEncode s.params s.inBits)))

/-- LC.AMI.DEC (R179). -/
def execLcAmiDec (s : State) : Host.Outcome State Fault Refusal :=
  .next ((s.warnIf (partialUnit s.params.samples s.inSig.length)).emit (.bits (amiDecode s.params s.inSig)))

end Sys2Proof.Machine
end

