-- ==== Sys2Proof/Machine/Bridge.lean ====
section
/-! DEFINITION. The analog bridge (44_bridge_channel.md, R220 to R236): the linear paths ASK and BPSK work sample by
sample, every other scheme goes through bits. -/

namespace Sys2Proof.Machine

/-- `ref[i]` (R221): the unit sine, its time base restarting every S samples. -/
def refSine (p : Params) (i : Nat) : Sample := sinRef p p.carrierFreq (i % p.samples)

/-- A signal multiplied sample by sample by the reference carrier (R221). -/
def timesRef (p : Params) (x : List Sample) : List Sample := x.mapIdx fun i v => v.mul (refSine p i)

/-- `W_LPF`, the window length: floor(S/2), at least 1 (R224). -/
def lpfWindow (p : Params) : Nat := max 1 (p.samples / 2)

/-- How far before its sample the window starts (R224; LPF_ALIGN, log 6). -/
def lpfBack (p : Params) : Nat :=
  match p.lpfAlign with
  | .centred => (lpfWindow p - 1) / 2
  | .causal => lpfWindow p - 1
  | .anticausal => 0

/-- The low-pass filter `lpf` (R224): the moving average, missing neighbours counted as zero. The sequence extended by zeros
on both sides holds the neighbour i + d − back at index i + d. -/
def lpf (p : Params) (z : List Sample) : List Sample :=
  let w := lpfWindow p
  let ext := List.replicate (lpfBack p) Sample.zero ++ z ++ List.replicate w Sample.zero
  (List.range z.length).map fun i => (Sample.sum ((ext.drop i).take w)).scale (1 / (w : ℚ))

/-- The ASK forward path (R222): a voltage that is not positive is clamped to 0. -/
def askForward (p : Params) (v : List Sample) : List Sample := timesRef p (v.map Sample.posPart)

/-- The BPSK forward path (R223). -/
def bpskForward (p : Params) (v : List Sample) : List Sample := timesRef p v

/-- The ASK reverse path (R225): +1 above T_BRIDGE, else −1. -/
def askReverse (p : Params) (y : List Sample) : List Sample :=
  (lpf p (timesRef p y)).map fun f =>
    if p.bridgeThreshold.lt f then Sample.ofRat 1 else Sample.ofRat (-1)

/-- The BPSK reverse path (R226). -/
def bpskReverse (p : Params) (y : List Sample) : List Sample := lpf p (timesRef p y)

/-- `cplx_fwd` (R227): decode by the line code, then modulate. -/
def complexForward (p : Params) (c : LineCode) (s : Scheme) (v : List Sample) : Staged (List Sample) :=
  match lineDecode p c v with
  | .error t => .error t
  | .ok (b, w) =>
    match carrierMod p s b with
    | .error t => .error t
    | .ok (x, w') => .ok (x, w || w')

/-- `cplx_rev` (R228): demodulate, then encode by the line code. -/
def complexReverse (p : Params) (c : LineCode) (s : Scheme) (y : List Sample) : Staged (List Sample) :=
  match carrierDem p s y with
  | .error t => .error t
  | .ok (b, w) =>
    match lineEncode p c b with
    | .error t => .error t
    | .ok (x, w') => .ok (x, w || w')

/-- A linear path: its parameters, then its signal; it never warns (R221, R239, R272). -/
def linearPath (p : Params) (x : List Sample) : Staged (List Sample) :=
  match carrierParams p with
  | .error t => .error t
  | .ok _ => .ok (x, false)

/-- `AB.FWD` of a scheme and a line code (R72, R220). -/
def bridgeForward (p : Params) (c : LineCode) (s : Scheme) (v : List Sample) : Staged (List Sample) :=
  match s with
  | .ask => linearPath p (askForward p v)
  | .bpsk => linearPath p (bpskForward p v)
  | s => complexForward p c s v

/-- `AB.REV` of a scheme and a line code (R72, R220). -/
def bridgeReverse (p : Params) (c : LineCode) (s : Scheme) (y : List Sample) : Staged (List Sample) :=
  match s with
  | .ask => linearPath p (askReverse p y)
  | .bpsk => linearPath p (bpskReverse p y)
  | s => complexReverse p c s y

/-- A stand-alone command that needs CFG.LINE: NotConfigured comes before anything else (R220, R276, R283). -/
def State.ifConfigured (s : State) (r : Staged (List Sample)) : State :=
  if s.cfgValid then s.finish (asSamples r) else s.raise ⟨.notConfigured, .none⟩

/-- AB.ASK.FWD (R222). -/
def execAbAskFwd (s : State) : Host.Outcome State Fault Refusal :=
  .next (s.finish (asSamples (linearPath s.params (askForward s.params s.inSig))))

/-- AB.ASK.REV (R225). -/
def execAbAskRev (s : State) : Host.Outcome State Fault Refusal :=
  .next (s.finish (asSamples (linearPath s.params (askReverse s.params s.inSig))))

/-- AB.FSK.FWD (R229). -/
def execAbFskFwd (s : State) : Host.Outcome State Fault Refusal :=
  .next (s.ifConfigured (complexForward s.params s.cfg.line .fsk s.inSig))

/-- AB.FSK.REV (R230). -/
def execAbFskRev (s : State) : Host.Outcome State Fault Refusal :=
  .next (s.ifConfigured (complexReverse s.params s.cfg.line .fsk s.inSig))

/-- AB.BPSK.FWD (R223). -/
def execAbBpskFwd (s : State) : Host.Outcome State Fault Refusal :=
  .next (s.finish (asSamples (linearPath s.params (bpskForward s.params s.inSig))))

/-- AB.BPSK.REV (R226). -/
def execAbBpskRev (s : State) : Host.Outcome State Fault Refusal :=
  .next (s.finish (asSamples (linearPath s.params (bpskReverse s.params s.inSig))))

/-- AB.QPSK.FWD (R231). -/
def execAbQpskFwd (s : State) : Host.Outcome State Fault Refusal :=
  .next (s.ifConfigured (complexForward s.params s.cfg.line .qpsk s.inSig))

/-- AB.QPSK.REV (R232). -/
def execAbQpskRev (s : State) : Host.Outcome State Fault Refusal :=
  .next (s.ifConfigured (complexReverse s.params s.cfg.line .qpsk s.inSig))

/-- AB.8PSK.FWD (R233). -/
def execAb8pskFwd (s : State) : Host.Outcome State Fault Refusal :=
  .next (s.ifConfigured (complexForward s.params s.cfg.line .psk8 s.inSig))

/-- AB.8PSK.REV (R234). -/
def execAb8pskRev (s : State) : Host.Outcome State Fault Refusal :=
  .next (s.ifConfigured (complexReverse s.params s.cfg.line .psk8 s.inSig))

/-- AB.QAM16.FWD (R235). -/
def execAbQam16Fwd (s : State) : Host.Outcome State Fault Refusal :=
  .next (s.ifConfigured (complexForward s.params s.cfg.line .qam16 s.inSig))

/-- AB.QAM16.REV (R236). -/
def execAbQam16Rev (s : State) : Host.Outcome State Fault Refusal :=
  .next (s.ifConfigured (complexReverse s.params s.cfg.line .qam16 s.inSig))

end Sys2Proof.Machine
end

