-- ==== Sys2Proof/Machine/Channel.lean ====
section
/-! DEFINITION. The channel (44_bridge_channel.md, R237, R238). -/

namespace Sys2Proof.Machine

/-- Whether a noise intensity lets the signal pass unchanged: σ ≤ 0 (R237). What is not a number is not ≤ 0 (log 23). -/
def passThrough : SigmaArg → Bool
  | .real q => !q.isPos
  | .notReal => false

/-- A signal with one noise draw added to each sample (R237). -/
def addNoise (x n : List Sample) : List Sample := List.zipWith Sample.add x n

/-- The channel's output (R237). -/
def State.channelOut (s : State) (a : SigmaArg) (x : List Sample) : List Sample :=
  if passThrough a then x else addNoise x (s.draws x.length)

/-- The state after the channel has taken its draws, one for each sample (R237; log 7). -/
def State.channelDone (s : State) (a : SigmaArg) (x : List Sample) : State :=
  if passThrough a then s else s.afterDraws x.length

/-- CH.NOISE (R237); sigma is given with the command. -/
def execChNoise (s : State) : Host.Outcome State Fault Refusal :=
  .next ((s.channelDone s.inSigma s.inSig).emit (.samples (s.channelOut s.inSigma s.inSig)))

end Sys2Proof.Machine
end

