-- ==== Sys2Proof/Machine/ErrorControl.lean ====
section
/-! DEFINITION. The error-control operations (41_error_control.md, R130 to R160). -/

namespace Sys2Proof.Machine

/-- All but the last n bits (R137, R142, R148). -/
def stripLast (n : Nat) (b : BitSeq) : BitSeq := slice b 0 (b.length - n)

/-- The last n bits. -/
def lastBits (n : Nat) (b : BitSeq) : BitSeq := slice b (b.length - n) b.length

/-- The parity bit, popcount mod 2 (R134). -/
def parityBit (b : BitSeq) : Bit := popcount b % 2 == 1

/-- The even-parity encoder (R135). -/
def parityEncode (b : BitSeq) : BitSeq := b ++ [parityBit b]

/-- The even-parity verdict (R136). -/
def parityPass (r : BitSeq) : Bool := popcount r % 2 == 0

/-- The running ones-complement sum of 16-bit words from `sum` (W.sum, 0 at the start) with end-around carry (R138). -/
def csumFold (sum : Nat) : List BitSeq → Nat
  | [] => sum
  | d :: l =>
    let t := sum + val d
    csumFold (if 0xFFFF < t then t % 0x10000 + t / 0x10000 else t) l

/-- `csum16(b)` (R138): the complement of the sum of the words of the zero-padded copy. -/
def csum16 (b : BitSeq) : Nat := 0xFFFF - csumFold 0 (complete 16 (pad16 b))

/-- The checksum encoder (R139): appended to the unpadded payload. -/
def checksumEncode (b : BitSeq) : BitSeq := b ++ beBits 16 (csum16 b)

/-- The checksum verdict (R141): recomputed and compared bit by bit. -/
def checksumPass (r : BitSeq) : Bool :=
  decide (16 ≤ r.length) && beBits 16 (csum16 (stripLast 16 r)) == lastBits 16 r

/-- `GEN`, the 33-bit generator (R143). -/
def crcGen : BitSeq := beBits 33 0x104C11DB7

/-- Exclusive-or of a pattern into the front of a sequence. -/
def xorFront : BitSeq → BitSeq → BitSeq
  | _, [] => []
  | [], w => w
  | g :: gs, x :: w => (g ^^ x) :: xorFront gs w

/-- n division steps on the window W.win (R144): where the leading bit is 1 the generator is exclusive-ored in; the leading
bit, then 0, is passed over. -/
def crcDivide : Nat → BitSeq → BitSeq
  | 0, w => w
  | n + 1, w => crcDivide n (if w.headD false then xorFront crcGen w else w).tail

/-- `crc32(b)`: the 32-bit remainder (R144). -/
def crc32 (b : BitSeq) : BitSeq := crcDivide b.length (b ++ zeros 32)

/-- The CRC encoder (R146). -/
def crcEncode (b : BitSeq) : BitSeq := b ++ crc32 b

/-- The CRC verdict (R147). -/
def crcPass (r : BitSeq) : Bool := decide (32 ≤ r.length) && crc32 (stripLast 32 r) == lastBits 32 r

/-- Whether a 1-indexed position is a power of two, a parity position (R151). -/
def isParityPos (j : Nat) : Bool := j == 2 ^ j.log2

/-- The least r ≥ the given one with 2^r ≥ m + r + 1, within a number of trials. -/
def parityCountFrom (m : Nat) : Nat → Nat → Nat
  | 0, r => r
  | k + 1, r => if m + r + 1 ≤ 2 ^ r then r else parityCountFrom m k (r + 1)

/-- r(m): the number of parity bits of m data bits (R150). -/
def parityCount (m : Nat) : Nat := parityCountFrom m (m + 2) 0

/-- The code word with its parity positions 0, from position j on, n positions (R151, R153). -/
def hamPlace : Nat → Nat → BitSeq → BitSeq
  | _, 0, _ => []
  | j, n + 1, d => if isParityPos j then false :: hamPlace (j + 1) n d else d.headD false :: hamPlace (j + 1) n d.tail

/-- The exclusive-or of the bits at the positions of C(p), the first bit standing at position j (R152). -/
def xorOver (p : Nat) : Nat → BitSeq → Bool
  | _, [] => false
  | j, x :: c => (decide (j &&& p ≠ 0) && x) ^^ xorOver p (j + 1) c

/-- The code word with each parity position holding the exclusive-or over its set (R152, R153). -/
def hamFill (c : BitSeq) : Nat → BitSeq → BitSeq
  | _, [] => []
  | j, x :: l => (if isParityPos j then xorOver j 1 c else x) :: hamFill c (j + 1) l

/-- The Hamming encoder (R153). -/
def hamEncode (d : BitSeq) : BitSeq :=
  let c := hamPlace 1 (d.length + parityCount d.length) d
  hamFill c 1 c

/-- The syndrome W.syn (R155): the sum of the powers of two p ≤ n whose set is odd. -/
def hamSyndrome (c : BitSeq) : Nat :=
  ((List.range (c.length.log2 + 1)).map fun i =>
    if 2 ^ i ≤ c.length ∧ xorOver (2 ^ i) 1 c = true then 2 ^ i else 0).sum

/-- The bits at the positions that are no power of two, the first bit standing at position j (R155). -/
def hamData : Nat → BitSeq → BitSeq
  | _, [] => []
  | j, x :: c => if isParityPos j then hamData (j + 1) c else x :: hamData (j + 1) c

/-- `CORRECTED` (R155): the syndrome is a position of the word. -/
def hamCorrects (c : BitSeq) : Bool := decide (1 ≤ hamSyndrome c) && decide (hamSyndrome c ≤ c.length)

/-- The word with the bit at the syndrome's position flipped back, where there is one (R155). -/
def hamRepair (c : BitSeq) : BitSeq := if hamCorrects c then c.modify (hamSyndrome c - 1) not else c

/-- The Hamming decoder (R155). -/
def hamDecode (c : BitSeq) : BitSeq := hamData 1 (hamRepair c)

/-- `EC.ENC` of a configuration (R72). -/
def ecEncode (e : ErrorControl) (b : BitSeq) : BitSeq :=
  match e with
  | .none => b
  | .parity => parityEncode b
  | .checksum => checksumEncode b
  | .crc => crcEncode b
  | .hamming => hamEncode b

/-- The verdict of the CHK that `EC.RX` runs (R251), none for Hamming. -/
def ecVerdict (e : ErrorControl) (r : BitSeq) : Option Bool :=
  match e with
  | .none => some true
  | .parity => some (parityPass r)
  | .checksum => some (checksumPass r)
  | .crc => some (crcPass r)
  | .hamming => none

/-- The payload that `EC.RX` hands on, the redundancy removed whether or not the check passed (R251). -/
def ecPayload (e : ErrorControl) (r : BitSeq) : BitSeq :=
  match e with
  | .none => r
  | .parity => stripLast 1 r
  | .checksum => stripLast 16 r
  | .crc => stripLast 32 r
  | .hamming => hamDecode r

/-- The status of a reception (R251). -/
def ecStatus (e : ErrorControl) (r : BitSeq) : Status :=
  match e with
  | .none => .noVerification
  | .parity => if parityPass r then .success else .parityError
  | .checksum => if checksumPass r then .success else .checksumError
  | .crc => if crcPass r then .success else .crcError
  | .hamming => .hammingOk

/-- The flags that `EC.RX` writes: OK by a CHK, CORRECTED by EC.HAM.DEC (R27, R251; log 19). -/
def State.ecFlags (s : State) (e : ErrorControl) (r : BitSeq) : State :=
  match ecVerdict e r with
  | some v => s.setOk v
  | none => s.setCorrected (hamCorrects r)

/-- EC.NONE.ENC (R131). -/
def execEcNoneEnc (s : State) : Host.Outcome State Fault Refusal := .next (s.emit (.bits s.inBits))

/-- EC.NONE.CHK (R132). -/
def execEcNoneChk (s : State) : Host.Outcome State Fault Refusal := .next ((s.setOk true).emit (.bits s.inBits))

/-- EC.NONE.STRIP (R133). -/
def execEcNoneStrip (s : State) : Host.Outcome State Fault Refusal := .next (s.emit (.bits s.inBits))

/-- EC.PAR.ENC (R135). -/
def execEcParEnc (s : State) : Host.Outcome State Fault Refusal := .next (s.emit (.bits (parityEncode s.inBits)))

/-- EC.PAR.CHK (R136). -/
def execEcParChk (s : State) : Host.Outcome State Fault Refusal :=
  .next ((s.setOk (parityPass s.inBits)).emit (.bits s.inBits))

/-- EC.PAR.STRIP (R137). -/
def execEcParStrip (s : State) : Host.Outcome State Fault Refusal := .next (s.emit (.bits (stripLast 1 s.inBits)))

/-- EC.SUM.ENC (R139). -/
def execEcSumEnc (s : State) : Host.Outcome State Fault Refusal := .next (s.emit (.bits (checksumEncode s.inBits)))

/-- EC.SUM.CHK (R141). -/
def execEcSumChk (s : State) : Host.Outcome State Fault Refusal :=
  .next ((s.setOk (checksumPass s.inBits)).emit (.bits s.inBits))

/-- EC.SUM.STRIP (R142). -/
def execEcSumStrip (s : State) : Host.Outcome State Fault Refusal := .next (s.emit (.bits (stripLast 16 s.inBits)))

/-- EC.CRC.ENC (R146). -/
def execEcCrcEnc (s : State) : Host.Outcome State Fault Refusal := .next (s.emit (.bits (crcEncode s.inBits)))

/-- EC.CRC.CHK (R147). -/
def execEcCrcChk (s : State) : Host.Outcome State Fault Refusal :=
  .next ((s.setOk (crcPass s.inBits)).emit (.bits s.inBits))

/-- EC.CRC.STRIP (R148). -/
def execEcCrcStrip (s : State) : Host.Outcome State Fault Refusal := .next (s.emit (.bits (stripLast 32 s.inBits)))

/-- EC.HAM.ENC (R153). -/
def execEcHamEnc (s : State) : Host.Outcome State Fault Refusal := .next (s.emit (.bits (hamEncode s.inBits)))

/-- EC.HAM.DEC (R155). -/
def execEcHamDec (s : State) : Host.Outcome State Fault Refusal :=
  .next ((s.setCorrected (hamCorrects s.inBits)).emit (.bits (hamDecode s.inBits)))

end Sys2Proof.Machine
end

