-- ==== Sys2Proof/Machine/Framing.lean ====
section
/-! DEFINITION. The framing operations (40_framing.md, R100 to R120). -/

namespace Sys2Proof.Machine

/-- `BITFLAG`, 01111110 (R113). -/
def bitFlag : BitSeq := [false, true, true, true, true, true, true, false]

/-- The character-count encoder (R102, R73): the count of bytes with the header, then the payload unpadded. -/
def ccEncode (b : BitSeq) : Staged BitSeq :=
  let c := nbytes b + 1
  if 255 < c then .error ⟨.lengthOverflow, .count c⟩ else .ok (beBits 8 c ++ b, false)

/-- The character-count decoder (R104): the bits present, at most as many as the count asks for. -/
def ccDecode (f : BitSeq) : BitSeq :=
  if f.length < 8 then []
  else
    let c := val (slice f 0 8)
    if c = 0 then [] else slice f 8 (8 + (c - 1) * 8)

/-- R272, R279: byte stuffing needs FLAG ≠ ESC (log 13). -/
def byteStuffingParams (p : Params) : Except Trap Unit :=
  if p.flag = p.esc then .error ⟨.invalidParameter, .param .esc⟩ else .ok ()

/-- One payload byte of a byte-stuffed frame: FLAG and ESC are preceded by a stuffed ESC (R108). -/
def bsStuff (p : Params) (g : BitSeq) : BitSeq :=
  if val g = p.flag.toNat ∨ val g = p.esc.toNat then beBits 8 p.esc.toNat ++ g else g

/-- The byte-stuffing frame of a payload (R108, R74). -/
def bsFrame (p : Params) (b : BitSeq) : BitSeq :=
  beBits 8 p.flag.toNat ++ (chunkPad b).flatMap (bsStuff p) ++ beBits 8 p.flag.toNat

/-- The byte-stuffing encoder (R108). -/
def bsEncode (p : Params) (b : BitSeq) : Staged BitSeq :=
  match byteStuffingParams p with
  | .error t => .error t
  | .ok _ => .ok (bsFrame p b, false)

/-- The scan of a byte-stuffed body (R110); `esc` is W.esc, 0 at the start (R21). -/
def bsUnstuff (p : Params) : Bool → List BitSeq → BitSeq
  | _, [] => []
  | true, g :: l => g ++ bsUnstuff p false l
  | false, g :: l =>
    if val g = p.esc.toNat then bsUnstuff p true l
    else if val g = p.flag.toNat then bsUnstuff p false l
    else g ++ bsUnstuff p false l

/-- The payload of a byte-stuffing frame (R110): the first and last byte stripped unexamined, the rest scanned. -/
def bsPayload (p : Params) (f : BitSeq) : BitSeq :=
  let l := chunkTrunc f
  if l.length < 2 then [] else bsUnstuff p false (slice l 1 (l.length - 1))

/-- The byte-stuffing decoder (R110): it warns of a partial last byte. -/
def bsDecode (p : Params) (f : BitSeq) : Staged BitSeq :=
  match byteStuffingParams p with
  | .error t => .error t
  | .ok _ => .ok (bsPayload p f, partialUnit 8 f.length)

/-- The stuffed body (R114): a 0 after every fifth consecutive 1; `ones` is W.ones, 0 at the start (R21). -/
def bitStuff : Nat → BitSeq → BitSeq
  | _, [] => []
  | ones, true :: l => if ones + 1 = 5 then true :: false :: bitStuff 0 l else true :: bitStuff (ones + 1) l
  | _, false :: l => false :: bitStuff 0 l

/-- The bit-stuffing encoder (R114, R75). -/
def bitEncode (b : BitSeq) : BitSeq := bitFlag ++ bitStuff 0 b ++ bitFlag

/-- The scan of a bit-stuffed body (R116): a 0 that follows exactly five counted 1s is removed. -/
def bitUnstuff : Nat → BitSeq → BitSeq
  | _, [] => []
  | ones, true :: l => true :: bitUnstuff (ones + 1) l
  | ones, false :: l => if ones = 5 then bitUnstuff 0 l else false :: bitUnstuff 0 l

/-- The bit-stuffing decoder (R116): 8 bits stripped from each end unexamined. -/
def bitDecode (f : BitSeq) : BitSeq :=
  if f.length < 16 then [] else bitUnstuff 0 (slice f 8 (f.length - 8))

/-- `FRM.ENC` of a configuration (R72). -/
def frameEncode (p : Params) (f : Framing) (b : BitSeq) : Staged BitSeq :=
  match f with
  | .characterCount => ccEncode b
  | .byteStuffing => bsEncode p b
  | .bitStuffing => .ok (bitEncode b, false)

/-- `FRM.DEC` of a configuration (R72). -/
def frameDecode (p : Params) (f : Framing) (b : BitSeq) : Staged BitSeq :=
  match f with
  | .characterCount => .ok (ccDecode b, false)
  | .byteStuffing => bsDecode p b
  | .bitStuffing => .ok (bitDecode b, false)

/-- FRM.CC.ENC (R102). -/
def execFrmCcEnc (s : State) : Host.Outcome State Fault Refusal := .next (s.finish (asBits (ccEncode s.inBits)))

/-- FRM.CC.DEC (R104). -/
def execFrmCcDec (s : State) : Host.Outcome State Fault Refusal := .next (s.emit (.bits (ccDecode s.inBits)))

/-- FRM.BS.ENC (R108). -/
def execFrmBsEnc (s : State) : Host.Outcome State Fault Refusal := .next (s.finish (asBits (bsEncode s.params s.inBits)))

/-- FRM.BS.DEC (R110). -/
def execFrmBsDec (s : State) : Host.Outcome State Fault Refusal := .next (s.finish (asBits (bsDecode s.params s.inBits)))

/-- FRM.BIT.ENC (R114). -/
def execFrmBitEnc (s : State) : Host.Outcome State Fault Refusal := .next (s.emit (.bits (bitEncode s.inBits)))

/-- FRM.BIT.DEC (R116). -/
def execFrmBitDec (s : State) : Host.Outcome State Fault Refusal := .next (s.emit (.bits (bitDecode s.inBits)))

end Sys2Proof.Machine
end

