-- ==== Sys2Proof/Machine/TextConv.lean ====
section
/-! DEFINITION. Text conversion (45_pipeline.md, R240 to R242). -/

namespace Sys2Proof.Machine

/-- The index of the first character whose code point is above 255 (R272, R278). -/
def firstBadChar (t : Text) : Option Nat := t.findIdx? fun c => 255 < c

/-- The bits of a text over the code points 0 to 255 (R241). -/
def textBits (t : Text) : BitSeq := t.flatMap (beBits 8)

/-- `TXT.ENC` (R241). -/
def textEncode (t : Text) : Staged BitSeq :=
  match firstBadChar t with
  | some i => .error ⟨.invalidChar, .char i⟩
  | none => .ok (textBits t, false)

/-- `TXT.DEC` (R242); it warns of a partial last byte. -/
def textDecode (b : BitSeq) : Text := (chunkTrunc b).map val

/-- TXT.ENC (R241). -/
def execTxtEnc (s : State) : Host.Outcome State Fault Refusal := .next (s.finish (asBits (textEncode s.inText)))

/-- TXT.DEC (R242). -/
def execTxtDec (s : State) : Host.Outcome State Fault Refusal :=
  .next ((s.warnIf (partialUnit 8 s.inBits.length)).emit (.text (textDecode s.inBits)))

end Sys2Proof.Machine
end

