-- ==== Sys2Proof/Machine/Pipeline.lean ====
section
/-! DEFINITION. The host's pipeline commands (45_pipeline.md, R245 to R249, R253); the order of the checks is R283's. -/

namespace Sys2Proof.Machine

/-- `PSTATE` takes a value. -/
def State.setPState (s : State) (p : PState) : State := { s with pstate := p }

/-- CFG is replaced, all six fields at once, and is valid (R23, R25). -/
def State.setCfg (s : State) (c : PipeCfg) : State := { s with cfg := c, cfgValid := true }

/-- R247: Manchester needs an even S at configuration time. -/
def configParams (p : Params) (c : PipeCfg) : Except Trap Unit :=
  if c.line = .manchester ∧ p.samples % 2 ≠ 0 then .error ⟨.invalidParameter, .param .samples⟩ else .ok ()

/-- The configuration that a record asks for, or its fault: InvalidConfig, then InvalidParameter (R247, R283). -/
def requestedCfg (s : State) : Except Trap PipeCfg :=
  match configOf s.inCfgw s.inSigma with
  | .error f => .error ⟨.invalidConfig, .field f⟩
  | .ok c =>
    match configParams s.params c with
    | .error t => .error t
    | .ok _ => .ok c

/-- PL.CONFIGURE (R247): atomic to the host, so that Configuring is entered and left within the step. -/
def execPlConfigure (s : State) : Host.Outcome State Fault Refusal :=
  .next <|
    if s.busy then s.raise ⟨.busy, .pstate s.pstate⟩
    else
      let s1 := s.setPState .configuring
      match requestedCfg s1 with
      | .error t => (s1.setPState .idle).raise t
      | .ok c => ((s1.setCfg c).setPState .idle).done

/-- The acceptance of a transmission (R249): the snapshot, WARN cleared, and the sequencer at stage T1. -/
def State.accept (s : State) (t : Text) : State :=
  { s with snap := s.cfg, warn := false, pstate := .transmitting, flight := some (.t1 t), result := .done }

/-- PL.TRANSMIT (R249): Busy, then NotConfigured, then InvalidChar, else accepted. -/
def execPlTransmit (s : State) : Host.Outcome State Fault Refusal :=
  .next <|
    if s.busy then s.raise ⟨.busy, .pstate s.pstate⟩
    else if s.cfgValid = false then s.raise ⟨.notConfigured, .none⟩
    else
      match firstBadChar s.inText with
      | some i => s.raise ⟨.invalidChar, .char i⟩
      | none => s.accept s.inText

/-- PL.INSPECT (R253): a copy of a signal buffer, at any PSTATE. -/
def execPlInspect (s : State) : Host.Outcome State Fault Refusal :=
  .next <|
    match s.signal s.inIndex with
    | some x => s.emit (.samples x)
    | none => s.raise ⟨.invalidCommand, .index s.inIndex⟩

end Sys2Proof.Machine
end

