-- ==== Sys2Proof/Machine/Dispatch.lean ====
section
/-! DEFINITION. exec: the meaning of each operation, one arm for each constructor of Instr. -/

namespace Sys2Proof.Machine

def exec (i : Instr) (s : State) : Host.Outcome State Fault Refusal :=
  match i with
  | .frmCcEnc => Sys2Proof.Machine.execFrmCcEnc s
  | .frmCcDec => Sys2Proof.Machine.execFrmCcDec s
  | .frmBsEnc => Sys2Proof.Machine.execFrmBsEnc s
  | .frmBsDec => Sys2Proof.Machine.execFrmBsDec s
  | .frmBitEnc => Sys2Proof.Machine.execFrmBitEnc s
  | .frmBitDec => Sys2Proof.Machine.execFrmBitDec s
  | .ecNoneEnc => Sys2Proof.Machine.execEcNoneEnc s
  | .ecNoneChk => Sys2Proof.Machine.execEcNoneChk s
  | .ecNoneStrip => Sys2Proof.Machine.execEcNoneStrip s
  | .ecParEnc => Sys2Proof.Machine.execEcParEnc s
  | .ecParChk => Sys2Proof.Machine.execEcParChk s
  | .ecParStrip => Sys2Proof.Machine.execEcParStrip s
  | .ecSumEnc => Sys2Proof.Machine.execEcSumEnc s
  | .ecSumChk => Sys2Proof.Machine.execEcSumChk s
  | .ecSumStrip => Sys2Proof.Machine.execEcSumStrip s
  | .ecCrcEnc => Sys2Proof.Machine.execEcCrcEnc s
  | .ecCrcChk => Sys2Proof.Machine.execEcCrcChk s
  | .ecCrcStrip => Sys2Proof.Machine.execEcCrcStrip s
  | .ecHamEnc => Sys2Proof.Machine.execEcHamEnc s
  | .ecHamDec => Sys2Proof.Machine.execEcHamDec s
  | .lcNrzEnc => Sys2Proof.Machine.execLcNrzEnc s
  | .lcNrzDec => Sys2Proof.Machine.execLcNrzDec s
  | .lcManEnc => Sys2Proof.Machine.execLcManEnc s
  | .lcManDec => Sys2Proof.Machine.execLcManDec s
  | .lcAmiEnc => Sys2Proof.Machine.execLcAmiEnc s
  | .lcAmiDec => Sys2Proof.Machine.execLcAmiDec s
  | .cmAskMod => Sys2Proof.Machine.execCmAskMod s
  | .cmAskDem => Sys2Proof.Machine.execCmAskDem s
  | .cmFskMod => Sys2Proof.Machine.execCmFskMod s
  | .cmFskDem => Sys2Proof.Machine.execCmFskDem s
  | .cmBpskMod => Sys2Proof.Machine.execCmBpskMod s
  | .cmBpskDem => Sys2Proof.Machine.execCmBpskDem s
  | .cmQpskMod => Sys2Proof.Machine.execCmQpskMod s
  | .cmQpskDem => Sys2Proof.Machine.execCmQpskDem s
  | .cm8pskMod => Sys2Proof.Machine.execCm8pskMod s
  | .cm8pskDem => Sys2Proof.Machine.execCm8pskDem s
  | .cmQam16Mod => Sys2Proof.Machine.execCmQam16Mod s
  | .cmQam16Dem => Sys2Proof.Machine.execCmQam16Dem s
  | .abAskFwd => Sys2Proof.Machine.execAbAskFwd s
  | .abAskRev => Sys2Proof.Machine.execAbAskRev s
  | .abFskFwd => Sys2Proof.Machine.execAbFskFwd s
  | .abFskRev => Sys2Proof.Machine.execAbFskRev s
  | .abBpskFwd => Sys2Proof.Machine.execAbBpskFwd s
  | .abBpskRev => Sys2Proof.Machine.execAbBpskRev s
  | .abQpskFwd => Sys2Proof.Machine.execAbQpskFwd s
  | .abQpskRev => Sys2Proof.Machine.execAbQpskRev s
  | .ab8pskFwd => Sys2Proof.Machine.execAb8pskFwd s
  | .ab8pskRev => Sys2Proof.Machine.execAb8pskRev s
  | .abQam16Fwd => Sys2Proof.Machine.execAbQam16Fwd s
  | .abQam16Rev => Sys2Proof.Machine.execAbQam16Rev s
  | .chNoise => Sys2Proof.Machine.execChNoise s
  | .txtEnc => Sys2Proof.Machine.execTxtEnc s
  | .txtDec => Sys2Proof.Machine.execTxtDec s
  | .plConfigure => Sys2Proof.Machine.execPlConfigure s
  | .plTransmit => Sys2Proof.Machine.execPlTransmit s
  | .plInspect => Sys2Proof.Machine.execPlInspect s

end Sys2Proof.Machine
end

