-- ==== Sys2Proof/Machine/Fetch.lean ====
section
/-! DEFINITION. How a command reaches the block: there is no program and no fetch from memory (R20, R46); the host presents
one command word at a time (R60). What the host does next stands at the head of `hostActs` (log 14). -/

namespace Sys2Proof.Machine

/-- The state in which the next host action is carried out: the action is taken off the script, and the completion event of
the step before, an edge, is over (R287; log 16). -/
def State.consume (s : State) : State := { s with hostActs := s.hostActs.tail, event := none }

/-- The host presents one command word, of nbits ≤ 8 bits, as its next action. -/
def State.presentCommand (s : State) (nbits w : Nat) : State :=
  { s with hostActs := .command (BitVec.ofNat 8 (w % 2 ^ nbits)) :: s.hostActs }

end Sys2Proof.Machine
end

