-- ==== Sys2Proof/Machine/Sequencer.lean ====
section
/-! DEFINITION. The sequencer (45_pipeline.md, R244, R249 to R252, R254): one stage of an accepted transmission a step. -/

namespace Sys2Proof.Machine

/-- The transmission moves on to a stage. -/
def State.goto (s : State) (f : Flight) : State := { s with flight := some f }

/-- A fault inside a run ends it (R254, R281): nothing is published, the completion event carries the fault. -/
def State.abort (s : State) (t : Trap) : State :=
  { s with flight := none, pstate := .idle, event := some (.failed t) }

/-- A stage's result: its fault ends the run, else its warning is kept and the next stage follows. -/
def State.stage {α : Type} (s : State) (r : Staged α) (k : α → Flight) : State :=
  match r with
  | .error t => s.abort t
  | .ok (a, w) => (s.warnIf w).goto (k a)

/-- Publication, one atomic step (R57, R250). -/
def State.publish (s : State) (s0 s1 s2 s3 : List Sample) (t : Text) (st : Status) : State :=
  { s with sigBase := s0, sigMod := s1, sigRx := s2, sigDemod := s3, rtext := t, status := some st }

/-- Completion (R252): the event DONE(RTEXT, STATUS), and PSTATE back to Idle. -/
def State.complete (s : State) (t : Text) (st : Status) : State :=
  { s with flight := none, pstate := .idle, event := some (.done t st) }

/-- Stage T5, `AB.FWD` where the carrier is on, else a copy (R248, R249). -/
def stageForward (p : Params) (c : PipeCfg) (x : List Sample) : Staged (List Sample) :=
  match carrierOn c with
  | some sch => bridgeForward p c.line sch x
  | none => .ok (x, false)

/-- Stage R1, `AB.REV` where the carrier is on, else a copy (R248, R249). -/
def stageReverse (p : Params) (c : PipeCfg) (x : List Sample) : Staged (List Sample) :=
  match carrierOn c with
  | some sch => bridgeReverse p c.line sch x
  | none => .ok (x, false)

/-- One stage of R249. -/
def State.runStage (s : State) : Flight → State
  | .t1 t => s.stage (textEncode t) .t2
  | .t2 b0 => s.goto (.t3 (ecEncode s.snap.ec b0))
  | .t3 b1 => s.stage (frameEncode s.params s.snap.framing b1) .t4
  | .t4 b2 => s.stage (lineEncode s.params s.snap.line b2) .t5
  | .t5 s0 => s.stage (stageForward s.params s.snap s0) (.t6 s0)
  | .t6 s0 s1 =>
    ((s.channelDone (.real s.snap.sigma) s1).setPState .receiving).goto
      (.r1 s0 s1 (s.channelOut (.real s.snap.sigma) s1))
  | .r1 s0 s1 s2 => s.stage (stageReverse s.params s.snap s2) (.r2 s0 s1 s2)
  | .r2 s0 s1 s2 s3 => s.stage (lineDecode s.params s.snap.line s3) (.r3 s0 s1 s2 s3)
  | .r3 s0 s1 s2 s3 b3 => s.stage (frameDecode s.params s.snap.framing b3) (.r4 s0 s1 s2 s3)
  | .r4 s0 s1 s2 s3 b4 =>
    (s.ecFlags s.snap.ec b4).goto (.r5 s0 s1 s2 s3 (ecPayload s.snap.ec b4) (ecStatus s.snap.ec b4))
  | .r5 s0 s1 s2 s3 b5 st =>
    (s.warnIf (partialUnit 8 b5.length)).goto (.r6 s0 s1 s2 s3 (textDecode b5) st)
  | .r6 s0 s1 s2 s3 t st => (s.publish s0 s1 s2 s3 t st).complete t st

/-- The sequencer's step (R244): the next stage of the transmission in flight, nothing where there is none. -/
def State.sequence (s : State) : State :=
  match s.flight with
  | some f => s.runStage f
  | none => s

end Sys2Proof.Machine
end

