-- ==== Sys2Proof/Machine/HostStep.lean ====
section
/-! DEFINITION. What each action of the host does (R56, R60, R244; log 14). -/

namespace Sys2Proof.Machine

/-- The host presents a command word: the operation it selects, or InvalidCommand (R60, R273, R283). -/
def State.command (s : State) (c : CmdWord) : Host.Outcome State Fault Refusal :=
  match decode c with
  | .ok i => exec i s
  | .error _ => .next (s.raise ⟨.invalidCommand, .command c⟩)

/-- One host action, in the state left when it is taken off the script. -/
def State.act (s : State) : HostAct → Host.Outcome State Fault Refusal
  | .present o => .next (s.present o)
  | .chain => .next s.chain
  | .command c => s.command c
  | .pass => .next s.sequence
  | .readStatus => .next s.readStatus

end Sys2Proof.Machine
end

