-- ==== Sys2Proof/Machine/Step.lean ====
section
/-! DEFINITION. One step of the machine: one action of the host, or one stage of the sequencer (R56, R244; log 14, log 15). -/

namespace Sys2Proof.Machine

/-- One step: the host's next action; where the script is empty, the sequencer's stage. -/
def step (s : State) : Host.Outcome State Fault Refusal := s.consume.act (s.hostActs.headD .pass)

/-- The state in which the next step carries out one command word: the word stands at the head of the host's script. -/
def State.withFetchWord (s : State) (nbits w : Nat) : State := s.presentCommand nbits w

end Sys2Proof.Machine
end

