-- ==== Sys2Proof/Pseudocode.lean ====
section
/-! DEFINITION. The spec's pseudocode, loop by loop, as the statements quote it: each loop is a left fold over the
operation's input whose state is the output so far and the working register of R21. The meanings in Machine/ are written
otherwise; that the two agree is stated, not assumed. -/

namespace Sys2Proof.Pseudocode

open Sys2Proof.Machine

/-- Bits written as digits. -/
def bits (l : List Nat) : BitSeq := l.map (· == 1)

/-- R113: 01111110. -/
def flagPattern : BitSeq := bits [0, 1, 1, 1, 1, 1, 1, 0]

/-- FRM.BIT.ENC, one pass of the loop of R114: the output so far and W.ones. -/
def stuffOne (a : BitSeq × Nat) (x : Bit) : BitSeq × Nat :=
  if x then (if a.2 + 1 = 5 then (a.1 ++ [x] ++ [false], 0) else (a.1 ++ [x], a.2 + 1)) else (a.1 ++ [x], 0)

/-- The body that the loop of R114 emits. -/
def stuffedBody (b : BitSeq) : BitSeq := (b.foldl stuffOne ([], 0)).1

/-- FRM.BIT.DEC, one pass of the loop of R116: the output so far and W.ones. -/
def unstuffOne (a : BitSeq × Nat) (x : Bit) : BitSeq × Nat :=
  if a.2 = 5 ∧ x = false then (a.1, 0) else (a.1 ++ [x], if x then a.2 + 1 else 0)

/-- The payload that the loop of R116 emits from a body. -/
def unstuffedBody (b : BitSeq) : BitSeq := (b.foldl unstuffOne ([], 0)).1

/-- FRM.BS.ENC, one pass of the loop of R108. -/
def escapeOne (p : Params) (out g : BitSeq) : BitSeq :=
  (if val g = p.flag.toNat ∨ val g = p.esc.toNat then out ++ beBits 8 p.esc.toNat else out) ++ g

/-- FRM.BS.DEC, one pass of the loop of R110: the output so far and W.esc. -/
def unescapeOne (p : Params) (a : BitSeq × Bool) (g : BitSeq) : BitSeq × Bool :=
  if a.2 then (a.1 ++ g, false)
  else if val g = p.esc.toNat then (a.1, true)
  else if val g = p.flag.toNat then (a.1, false)
  else (a.1 ++ g, false)

/-- One pass of the loop of R138 over W.sum. -/
def sumOne (sum : Nat) (w : BitSeq) : Nat :=
  if 0xFFFF < sum + val w then (sum + val w) % 65536 + (sum + val w) / 65536 else sum + val w

/-- R138: the 16-bit words of the padded copy. -/
def words16 (b : BitSeq) : List BitSeq :=
  (List.range ((b.length + 15) / 16)).map fun k => ((pad16 b).drop (16 * k)).take 16

/-- csum16 (R138). -/
def csum (b : BitSeq) : Nat := 0xFFFF - (words16 b).foldl sumOne 0

/-- GEN as R143 writes it. -/
def gen : BitSeq :=
  bits [1, 0, 0, 0, 0, 0, 1, 0, 0, 1, 1, 0, 0, 0, 0, 0, 1, 0, 0, 0, 1, 1, 1, 0, 1, 1, 0, 1, 1, 0, 1, 1, 1]

/-- One pass of the loop of R144 over W.win: where bit i is 1, GEN is exclusive-ored into bits i to i+32. -/
def divideAt (win : BitSeq) (i : Nat) : BitSeq :=
  if win.getD i false then win.mapIdx fun n x => if i ≤ n ∧ n ≤ i + 32 then x ^^ gen.getD (n - i) false else x else win

/-- crc32 (R144). -/
def crc (b : BitSeq) : BitSeq := ((List.range b.length).foldl divideAt (b ++ zeros 32)).drop b.length

/-- Whether a 1-indexed position is a power of two (R151). -/
def powerOfTwo (j : Nat) : Prop := ∃ i, j = 2 ^ i

/-- c[j], 1-indexed (R151). -/
def atPos (c : BitSeq) (j : Nat) : Bit := c.getD (j - 1) false

/-- The number of 1s of a word over C(p) (R152). -/
def onesOver (c : BitSeq) (p : Nat) : Nat :=
  ((List.range c.length).map (· + 1)).countP fun j => j &&& p != 0 && atPos c j

/-- The bits at the positions that are no power of two, in order (R151, R155). -/
def dataBits (c : BitSeq) : BitSeq :=
  (((List.range c.length).map (· + 1)).filter fun j => j != 2 ^ j.log2).map (atPos c)

/-- The syndrome of R155: the powers of two not above n whose set is odd, added up. -/
def syndrome (c : BitSeq) : Nat :=
  (((List.range c.length).map (· + 1)).filter fun p => p == 2 ^ p.log2 && onesOver c p % 2 == 1).sum

/-- LC.AMI.ENC, one pass of the loop of R178: the output so far and W.pol, true for +1. -/
def markOne (p : Params) (a : List Sample × Bool) (x : Bit) : List Sample × Bool :=
  if x then (a.1 ++ List.replicate p.samples (if a.2 then p.lineAmp else p.lineAmp.neg), !a.2)
  else (a.1 ++ List.replicate p.samples Sample.zero, a.2)

/-- The modulator of a scheme (R62). -/
def modOf : Scheme → Instr
  | .ask => .cmAskMod | .fsk => .cmFskMod | .bpsk => .cmBpskMod
  | .qpsk => .cmQpskMod | .psk8 => .cm8pskMod | .qam16 => .cmQam16Mod

/-- The demodulator of a scheme (R62). -/
def demOf : Scheme → Instr
  | .ask => .cmAskDem | .fsk => .cmFskDem | .bpsk => .cmBpskDem
  | .qpsk => .cmQpskDem | .psk8 => .cm8pskDem | .qam16 => .cmQam16Dem

/-- The bridge's forward operation of a scheme (R62). -/
def forwardOf : Scheme → Instr
  | .ask => .abAskFwd | .fsk => .abFskFwd | .bpsk => .abBpskFwd
  | .qpsk => .abQpskFwd | .psk8 => .ab8pskFwd | .qam16 => .abQam16Fwd

/-- The bridge's reverse operation of a scheme (R62). -/
def reverseOf : Scheme → Instr
  | .ask => .abAskRev | .fsk => .abFskRev | .bpsk => .abBpskRev
  | .qpsk => .abQpskRev | .psk8 => .ab8pskRev | .qam16 => .abQam16Rev

/-- The encoder of a line code (R62). -/
def lineEncOf : LineCode → Instr
  | .nrz => .lcNrzEnc | .manchester => .lcManEnc | .bipolar => .lcAmiEnc

/-- The decoder of a line code (R62). -/
def lineDecOf : LineCode → Instr
  | .nrz => .lcNrzDec | .manchester => .lcManDec | .bipolar => .lcAmiDec

/-- The encoder of a framing scheme (R62, R72). -/
def frameEncOf : Framing → Instr
  | .characterCount => .frmCcEnc | .byteStuffing => .frmBsEnc | .bitStuffing => .frmBitEnc

/-- The decoder of a framing scheme (R62, R72). -/
def frameDecOf : Framing → Instr
  | .characterCount => .frmCcDec | .byteStuffing => .frmBsDec | .bitStuffing => .frmBitDec

/-- The encoder of an error-control scheme (R62, R72). -/
def ecEncOf : ErrorControl → Instr
  | .none => .ecNoneEnc | .parity => .ecParEnc | .checksum => .ecSumEnc | .crc => .ecCrcEnc | .hamming => .ecHamEnc

/-- The schemes whose bridge path is complex (R220). -/
def onComplexPath : Scheme → Prop
  | .ask | .bpsk => False
  | .fsk | .qpsk | .psk8 | .qam16 => True

/-- The schemes that have a symbol table (R198). -/
def hasTable : Scheme → Prop
  | .ask | .fsk => False
  | .bpsk | .qpsk | .psk8 | .qam16 => True

/-- A build on which a scheme's operations raise no InvalidParameter (R272, R279). -/
def carrierReady (p : Params) (s : Scheme) : Prop :=
  1 ≤ p.carrierFreq ∧ 4 * p.carrierFreq < p.samples ∧ (hasTable s → (symTab p s).length = 2 ^ symbolWidth s)

/-- A build on which a line code raises no InvalidParameter (R174). -/
def lineReady (p : Params) (c : LineCode) : Prop := c = .manchester → p.samples % 2 = 0

/-- The codes of LINE (R66). -/
def lineBits : LineCode → Nat
  | .nrz => 0 | .manchester => 1 | .bipolar => 2

/-- The codes of CARRIER (R66). -/
def carrierBits : Carrier → Nat
  | some .ask => 0 | some .fsk => 1 | some .bpsk => 2 | some .qpsk => 3 | some .psk8 => 4 | some .qam16 => 5
  | none => 6

/-- The codes of FRAMING (R66). -/
def framingBits : Framing → Nat
  | .characterCount => 0 | .byteStuffing => 1 | .bitStuffing => 2

/-- The codes of EC (R66). -/
def ecBits : ErrorControl → Nat
  | .none => 0 | .parity => 1 | .checksum => 2 | .crc => 3 | .hamming => 4

/-- The packed configuration word of a configuration (R66). -/
def packed (c : PipeCfg) : CfgWord :=
  BitVec.ofNat 16 (lineBits c.line + 4 * carrierBits c.carrier + 32 * c.carrierEn.toNat + 64 * framingBits c.framing +
    256 * ecBits c.ec)

/-- Whether a SIGMA operand is a real that is not negative (R66). -/
def sigmaOk : SigmaArg → Bool
  | .real q => !q.isNeg
  | .notReal => false

/-- The first field of a configuration record that R274 refuses, in R274's order. -/
def firstBadField (w : Nat) (a : SigmaArg) : Option CfgField :=
  if w % 4 = 3 then some .line
  else if w / 4 % 8 = 7 then some .carrier
  else if w / 64 % 4 = 3 then some .framing
  else if 5 ≤ w / 256 % 8 then some .ec
  else if w / 2048 ≠ 0 then some .reserved
  else if sigmaOk a = false then some .sigma
  else none

/-- The passing status of an error-control scheme (R251). -/
def passing : ErrorControl → Status
  | .none => .noVerification
  | .parity | .checksum | .crc => .success
  | .hamming => .hammingOk

end Sys2Proof.Pseudocode
end

