-- ==== Sys2Proof/RealView.lean ====
section
/-! DEFINITION. Samples as real numbers, for the statements only (R8, R15: the rules are stated over the reals; log 1). No
part of the machine uses it. -/

namespace Sys2Proof.Machine

open Real

/-- The real value of one term. -/
noncomputable def termReal (t : ℚ × ℚ) : ℝ := (t.2 : ℝ) * cos (2 * π * (t.1 : ℝ))

/-- The real value of a list of terms. -/
noncomputable def termsReal (l : List (ℚ × ℚ)) : ℝ := (l.map termReal).sum

/-- The real number a `Sample` is. -/
noncomputable def Sample.toReal (x : Sample) : ℝ := termsReal x.terms

/-- x[n] as a real number, 0 outside the signal. -/
noncomputable def valueAt (x : List Sample) (n : ℕ) : ℝ := (x.getD n Sample.zero).toReal

/-- θ(f, j) = 2π·f·j/S (R191). -/
noncomputable def theta (p : Params) (f j : ℕ) : ℝ := 2 * π * (f : ℝ) * (j : ℝ) / (p.samples : ℝ)

/-- Σ_j w(j, B[j]) over block i of a signal (R51). -/
noncomputable def blockSum (p : Params) (x : List Sample) (i : ℕ) (w : ℕ → ℝ → ℝ) : ℝ :=
  ∑ j ∈ Finset.range p.samples, w j (valueAt x (p.samples * i + j))

/-- mean(B) of block i (R13). -/
noncomputable def blockMean (p : Params) (x : List Sample) (i : ℕ) : ℝ := blockSum p x i (fun _ v => v) / p.samples

/-- mean(abs(B)) of block i (R179, R194). -/
noncomputable def blockMeanAbs (p : Params) (x : List Sample) (i : ℕ) : ℝ := blockSum p x i (fun _ v => |v|) / p.samples

/-- I of block i, over A_MAX (R200). -/
noncomputable def blockI (p : Params) (x : List Sample) (i : ℕ) : ℝ :=
  2 / p.samples * blockSum p x i (fun j v => v * cos (theta p p.carrierFreq j)) / p.carrierAmp.toReal

/-- Q of block i, over A_MAX (R200). -/
noncomputable def blockQ (p : Params) (x : List Sample) (i : ℕ) : ℝ :=
  2 / p.samples * blockSum p x i (fun j v => v * -sin (theta p p.carrierFreq j)) / p.carrierAmp.toReal

/-- The squared distance of a point from a table entry's point (R200). -/
noncomputable def entryDistance (u v : ℝ) (e : SymEntry) : ℝ :=
  (u - e.x.toReal) ^ 2 + (v - e.y.toReal) ^ 2

/-- z[m] of the reverse linear paths: a received sample times the reference carrier (R225, R226). -/
noncomputable def mixedAt (p : Params) (x : List Sample) (m : ℕ) : ℝ :=
  valueAt x m * sin (theta p p.carrierFreq (m % p.samples))

/-- lpf(z)[n] with the centred window of w samples, missing neighbours zero (R224). -/
noncomputable def centredFilter (w : ℕ) (z : ℕ → ℝ) (n : ℕ) : ℝ :=
  1 / w * ∑ d ∈ Finset.range w, if (w - 1) / 2 ≤ n + d then z (n + d - (w - 1) / 2) else 0

end Sys2Proof.Machine
end

