-- ==== Sys2Proof/Safety.lean ====
section
/-! DEFINITION. What holds of the machine between steps, in the terms the statements use: where PSTATE and the sequencer
agree, what a run may hold, how many stages a run still has, and what it is for a stage to run an operation. -/

namespace Sys2Proof.Machine

/-- The PSTATE of a sequencer position (R245): Idle outside a run, Transmitting up to stage T6, Receiving from R1. -/
def phaseOf : Option Flight → PState
  | none => .idle
  | some (.t1 ..) | some (.t2 ..) | some (.t3 ..) | some (.t4 ..) | some (.t5 ..) | some (.t6 ..) => .transmitting
  | some (.r1 ..) | some (.r2 ..) | some (.r3 ..) | some (.r4 ..) | some (.r5 ..) | some (.r6 ..) => .receiving

/-- The stages a run still has to take, the one to run next counted (R249). -/
def stagesLeft : Flight → Nat
  | .t1 .. => 12 | .t2 .. => 11 | .t3 .. => 10 | .t4 .. => 9 | .t5 .. => 8 | .t6 .. => 7
  | .r1 .. => 6 | .r2 .. => 5 | .r3 .. => 4 | .r4 .. => 3 | .r5 .. => 2 | .r6 .. => 1

/-- A text over the code points 0 to 255 (R240). -/
def charsOk (t : Text) : Prop := ∀ c ∈ t, c ≤ 255

/-- The statuses an error-control scheme can give (R251). -/
def statusFits : ErrorControl → Status → Prop
  | .none, st => st = .noVerification
  | .parity, st => st = .success ∨ st = .parityError
  | .checksum, st => st = .success ∨ st = .checksumError
  | .crc, st => st = .success ∨ st = .crcError
  | .hamming, st => st = .hammingOk

/-- R248 to R250: with the carrier off the bridge stage copies its input. -/
def copied (c : PipeCfg) (x y : List Sample) : Prop := carrierOn c = none → y = x

/-- What holds of the private stage outputs of a run under a snapshot (R29, R249, R250). -/
def flightOk (c : PipeCfg) : Flight → Prop
  | .t1 t => charsOk t
  | .t2 _ | .t3 _ | .t4 _ | .t5 _ => True
  | .t6 s0 s1 => copied c s0 s1
  | .r1 s0 s1 s2 => copied c s0 s1 ∧ s2.length = s1.length
  | .r2 s0 s1 s2 s3 | .r3 s0 s1 s2 s3 _ | .r4 s0 s1 s2 s3 _ => copied c s0 s1 ∧ s2.length = s1.length ∧ copied c s2 s3
  | .r5 s0 s1 s2 s3 _ st => copied c s0 s1 ∧ s2.length = s1.length ∧ copied c s2 s3 ∧ statusFits c.ec st
  | .r6 s0 s1 s2 s3 t st =>
    copied c s0 s1 ∧ s2.length = s1.length ∧ copied c s2 s3 ∧ statusFits c.ec st ∧ charsOk t

/-- What holds of the published results right after a DONE (R250 to R252). -/
def eventOk (s : State) : Completion → Prop
  | .done t st =>
    s.rtext = t ∧ s.status = some st ∧ statusFits s.snap.ec st ∧
      copied s.snap s.sigBase s.sigMod ∧ copied s.snap s.sigRx s.sigDemod
  | .failed _ => True

/-- The invariant of the machine. -/
structure Inv (s : State) : Prop where
  /-- PSTATE is the sequencer's position; between steps it is never Configuring (R245). -/
  phase : s.pstate = phaseOf s.flight
  /-- A valid configuration is one that PL.CONFIGURE lets in (R247). -/
  cfg : s.cfgValid = true → s.cfg.wf s.params = true
  /-- A run has a valid configuration, and SNAP and CFG do not differ in it (R28, R312). -/
  snap : s.flight ≠ none → s.cfgValid = true ∧ s.snap = s.cfg
  /-- The run's private stage outputs (R29). -/
  flight : ∀ f, s.flight = some f → flightOk s.snap f
  /-- RTEXT holds code points 0 to 255 (R22). -/
  rtext : charsOk s.rtext
  /-- The channel keeps the length (R237, R238). -/
  channel : s.sigRx.length = s.sigMod.length
  /-- The completion event comes when the run is over, after publication (R252, R287). -/
  idle : s.event ≠ none → s.flight = none
  /-- The event carries what was published. -/
  event : ∀ e, s.event = some e → eventOk s e

/-- The state after k steps, none where one of them stops. -/
def steps : Nat → State → Option State
  | 0, s => some s
  | k + 1, s =>
    match step s with
    | .next t => steps k t
    | _ => none

/-- The step from s takes a stage that runs the operation i in the state u0 (R72, R249): where the operation is carried
out, its output, of the kind `kind`, goes to the next stage and its warning is kept; where it raises a fault, the run
ends with that fault on the completion event (R254). r is s with the host's turn taken off. -/
def stageRuns {α : Type} (s r : State) (i : Instr) (u0 : State) (kind : α → Buf) (next : α → Flight) : Prop :=
  ∃ u, exec i u0 = .next u ∧
    ((∃ a, u.result = .done ∧ u.out = kind a ∧ step s = .next { r with flight := some (next a), warn := u.warn }) ∨
      ∃ t, u.result = .fault t ∧
        step s = .next { r with flight := none, pstate := .idle, event := some (.failed t) })

end Sys2Proof.Machine
end

