-- ==== Sys2Proof/Certificates/Slice0/Obligations.lean ====
section
/-! DEFINITION. The statements for the provers, from the numbered rules of spec/. Each says the whole next state of the
operations it names (a record update names every field that changes; all the others are unchanged). -/

open Sys2Proof Sys2Proof.Machine Sys2Proof.Pseudocode

/-- For every operation, the decoder reads the operation back from the byte the encoder writes for it. (From
30_encoding.md R60, 30_encoding.md R62.) -/
def Obligations.CommandDecodeRoundTrip : Prop :=
  ∀ i : Instr, decode (encode i) = .ok i

/-- Command bytes written out from the table of R62, at least one of each unit, select the operations the table names.
(From 30_encoding.md R62, 95_test_vectors.md 8.) -/
def Obligations.CommandWordsOfTheSpec : Prop :=
  decode 0x00#8 = .ok .frmCcEnc ∧ decode 0x09#8 = .ok .frmBitDec ∧ decode 0x2A#8 = .ok .ecSumStrip ∧
  decode 0x31#8 = .ok .ecHamDec ∧ decode 0x45#8 = .ok .lcManDec ∧ decode 0x6C#8 = .ok .cmQpskMod ∧
  decode 0x95#8 = .ok .abQam16Rev ∧ decode 0xA0#8 = .ok .chNoise ∧ decode 0xC1#8 = .ok .txtDec ∧
  decode 0xC4#8 = .ok .plConfigure ∧ decode 0xC8#8 = .ok .plTransmit ∧ decode 0xCC#8 = .ok .plInspect

/-- A command byte selects no operation exactly when its UNIT is 7, its FN is 3, its FN is 2 outside EC schemes 0 to 3,
its FN is 1 on CH.NOISE, PL.CONFIGURE, PL.TRANSMIT or PL.INSPECT, or its SCHEME is above the unit's highest listed
code. When the host presents such a byte the step's result is InvalidCommand with the byte; the action is off the
host's script, the completion event of the step before is over, and nothing else changes. (Formalises R64.) -/
def Obligations.ReservedCommandsRefused : Prop :=
  (∀ c : CmdWord,
    (∀ i, decode c ≠ .ok i) ↔
      (c.toNat / 32 = 7 ∨ c.toNat % 4 = 3 ∨
        (c.toNat % 4 = 2 ∧ ¬(c.toNat / 32 = 1 ∧ c.toNat / 4 % 8 ≤ 3)) ∨
        (c.toNat % 4 = 1 ∧ (c.toNat = 0xA1 ∨ c.toNat = 0xC5 ∨ c.toNat = 0xC9 ∨ c.toNat = 0xCD)) ∨
        c.toNat / 4 % 8 > [2, 4, 2, 5, 5, 0, 3, 0].getD (c.toNat / 32) 0)) ∧
  ∀ (s : State) (c : CmdWord) (acts : List HostAct),
    (∀ i, decode c ≠ .ok i) → s.hostActs = .command c :: acts →
      step s = .next { s with hostActs := acts, event := none, result := .fault ⟨.invalidCommand, .command c⟩ }

/-- Where the head of the host's script is a command byte that decodes to an operation, the step is exec of that operation
in the state whose script has lost that action and whose completion event (an edge, R287) is over; and the step after
withFetchWord is exec of the word's operation. The script is the model's way to say what the host does next (log 14).
(From 30_encoding.md R60, 60_exceptions.md R287.) -/
def Obligations.StepRunsDecodedCommand : Prop :=
  (∀ (s : State) (c : CmdWord) (i : Instr) (acts : List HostAct),
    decode c = .ok i → s.hostActs = .command c :: acts →
      step s = exec i { s with hostActs := acts, event := none }) ∧
  ∀ (s : State) (w : Nat) (i : Instr),
    decode (BitVec.ofNat 8 (w % 2 ^ 8)) = .ok i → step (s.withFetchWord 8 w) = exec i { s with event := none }

/-- With c = ceil(len(IN)/8) + 1: when c ≤ 255, OUT is be_8(c) followed by IN as given; when c > 255 the result is the
fault LengthOverflow(c). No flag and no other state changes in either case. That OUT keeps its contents after the
fault is the model's reading of R273 and R280 against R13 (log 11, DEDUCED). (From 40_framing.md R102,
60_exceptions.md R277, 60_exceptions.md R280.) -/
def Obligations.FrmCcEncResult : Prop :=
  ∀ s : State,
    ((s.inBits.length + 7) / 8 + 1 ≤ 255 →
      exec .frmCcEnc s =
        .next { s with out := .bits (beBits 8 ((s.inBits.length + 7) / 8 + 1) ++ s.inBits), result := .done }) ∧
    (255 < (s.inBits.length + 7) / 8 + 1 →
      exec .frmCcEnc s =
        .next { s with result := .fault ⟨.lengthOverflow, .count ((s.inBits.length + 7) / 8 + 1)⟩ })

/-- Fewer than 8 bits give the empty OUT; count 0 gives the empty OUT; otherwise OUT is the (c-1)*8 bits after the first
8, or as many of them as are present. No fault, no flag, no other state. (Formalises R104.) -/
def Obligations.FrmCcDecResult : Prop :=
  ∀ s : State,
    exec .frmCcDec s =
      .next { s with
        out := .bits (if s.inBits.length < 8 then []
          else if val (s.inBits.take 8) = 0 then []
          else (s.inBits.drop 8).take ((val (s.inBits.take 8) - 1) * 8))
        result := .done }

/-- For any FLAG different from ESC: FRM.BS.ENC leaves FLAG, the zero-padded payload bytes with ESC before each byte that
equals FLAG or ESC, and FLAG. FRM.BS.DEC drops a partial last byte and sets WARN for it, gives the empty OUT for fewer
than two bytes, and otherwise strips the first and last byte unexamined and scans the rest by R110's loop. Nothing
else changes. (Formalises R108, R110.) -/
def Obligations.FrmBsResults : Prop :=
  ∀ s : State, s.params.flag ≠ s.params.esc →
    exec .frmBsEnc s =
      .next { s with
        out := .bits ((chunkPad s.inBits).foldl (escapeOne s.params) (beBits 8 s.params.flag.toNat) ++
          beBits 8 s.params.flag.toNat)
        result := .done } ∧
    exec .frmBsDec s =
      .next { s with
        warn := s.warn || decide (s.inBits.length % 8 ≠ 0)
        out := .bits (if (chunkTrunc s.inBits).length < 2 then []
          else (((chunkTrunc s.inBits).drop 1).dropLast.foldl (unescapeOne s.params) ([], false)).1)
        result := .done }

/-- FRM.BIT.ENC leaves 01111110, the body that R114's loop emits, and 01111110. FRM.BIT.DEC gives the empty OUT for fewer
than 16 bits and otherwise runs R116's loop over the bits between the first 8 and the last 8. No fault, no flag, no
other state. For a body with six or more consecutive 1s before a 0 the decoder's clause is the spec's decision D14,
that the 0 stays, of which R116 says 'A model should not let a claim rest on this case'. (From 40_framing.md R114,
40_framing.md R116.) -/
def Obligations.FrmBitResults : Prop :=
  ∀ s : State,
    exec .frmBitEnc s =
      .next { s with out := .bits (flagPattern ++ stuffedBody s.inBits ++ flagPattern), result := .done } ∧
    exec .frmBitDec s =
      .next { s with
        out := .bits (if s.inBits.length < 16 then []
          else unstuffedBody ((s.inBits.drop 8).take (s.inBits.length - 16)))
        result := .done }

/-- For every payload of at most 2032 bits, aligned or not, FRM.CC.ENC and then FRM.CC.DEC of its OUT both run and leave
the payload in OUT. (Formalises R105.) -/
def Obligations.CharacterCountRoundTrip : Prop :=
  ∀ s : State, s.inBits.length ≤ 2032 →
    ∃ t u, exec .frmCcEnc s = .next t ∧ exec .frmCcDec t.chain = .next u ∧ u.out = .bits s.inBits

/-- For every payload, and every FLAG different from ESC, FRM.BS.ENC and then FRM.BS.DEC of its OUT both run and leave the
payload followed by zeros up to a whole byte, with WARN as it was. (Formalises R112.) -/
def Obligations.ByteStuffingRoundTrip : Prop :=
  ∀ s : State, s.params.flag ≠ s.params.esc →
    ∃ t u, exec .frmBsEnc s = .next t ∧ exec .frmBsDec t.chain = .next u ∧
      u.out = .bits (s.inBits ++ zeros (8 * nbytes s.inBits - s.inBits.length)) ∧ u.warn = s.warn

/-- For every payload of any length, FRM.BIT.ENC and then FRM.BIT.DEC of its OUT both run and leave the payload in OUT.
(Formalises R118.) -/
def Obligations.BitStuffingRoundTrip : Prop :=
  ∀ s : State,
    ∃ t u, exec .frmBitEnc s = .next t ∧ exec .frmBitDec t.chain = .next u ∧ u.out = .bits s.inBits

/-- OUT of FRM.BIT.ENC is the flag, a body and the flag, where the body holds no six consecutive 1s and no occurrence of
01111110, and is at least as long as the payload. (From 40_framing.md R115.) -/
def Obligations.StuffedBodyNeverShowsTheFlag : Prop :=
  ∀ s : State,
    ∃ body, exec .frmBitEnc s = .next { s with out := .bits (flagPattern ++ body ++ flagPattern), result := .done } ∧
      ¬ List.replicate 6 true <:+: body ∧ ¬ flagPattern <:+: body ∧ s.inBits.length ≤ body.length

/-- From an empty IN, with FLAG different from ESC, the three encoders leave 00000001, FLAG FLAG and 0111111001111110, and
each decoder run on its encoder's OUT leaves the empty sequence. (Formalises R101.) -/
def Obligations.EmptyPayloadRoundTrips : Prop :=
  ∀ s : State, s.inBits = [] → s.params.flag ≠ s.params.esc →
    (∃ t u, exec .frmCcEnc s = .next t ∧ t.out = .bits (bits [0, 0, 0, 0, 0, 0, 0, 1]) ∧
      exec .frmCcDec t.chain = .next u ∧ u.out = .bits []) ∧
    (∃ t u, exec .frmBsEnc s = .next t ∧
      t.out = .bits (beBits 8 s.params.flag.toNat ++ beBits 8 s.params.flag.toNat) ∧
      exec .frmBsDec t.chain = .next u ∧ u.out = .bits []) ∧
    (∃ t u, exec .frmBitEnc s = .next t ∧
      t.out = .bits (bits [0, 1, 1, 1, 1, 1, 1, 0, 0, 1, 1, 1, 1, 1, 1, 0]) ∧
      exec .frmBitDec t.chain = .next u ∧ u.out = .bits [])

/-- The three operations of error control none leave IN in OUT; EC.NONE.CHK also sets OK to 1. Nothing else changes.
(Formalises R131, R132, R133.) -/
def Obligations.EcNoneResults : Prop :=
  ∀ s : State,
    exec .ecNoneEnc s = .next { s with out := .bits s.inBits, result := .done } ∧
    exec .ecNoneChk s = .next { s with ok := true, out := .bits s.inBits, result := .done } ∧
    exec .ecNoneStrip s = .next { s with out := .bits s.inBits, result := .done }

/-- EC.PAR.ENC leaves IN with the bit popcount(IN) mod 2 appended; EC.PAR.CHK leaves IN in OUT and OK = 1 exactly when
popcount(IN) is even; EC.PAR.STRIP leaves IN without its last bit, the empty sequence for an empty IN. Nothing else
changes. (Formalises R135, R136, R137.) -/
def Obligations.EcParityResults : Prop :=
  ∀ s : State,
    exec .ecParEnc s =
      .next { s with out := .bits (s.inBits ++ [decide (s.inBits.countP (· = true) % 2 = 1)]), result := .done } ∧
    exec .ecParChk s =
      .next { s with ok := decide (s.inBits.countP (· = true) % 2 = 0), out := .bits s.inBits, result := .done } ∧
    exec .ecParStrip s = .next { s with out := .bits s.inBits.dropLast, result := .done }

/-- With csum16 computed by the loop of R138: EC.SUM.ENC leaves IN followed by be_16(csum16(IN)); EC.SUM.CHK leaves IN in
OUT and sets OK exactly when IN has at least 16 bits and the checksum of all but the last 16 equals the last 16;
EC.SUM.STRIP leaves IN without its last 16 bits, the empty sequence for fewer than 16. Nothing else changes.
(Formalises R139, R141, R142.) -/
def Obligations.EcChecksumResults : Prop :=
  ∀ s : State,
    exec .ecSumEnc s = .next { s with out := .bits (s.inBits ++ beBits 16 (csum s.inBits)), result := .done } ∧
    exec .ecSumChk s =
      .next { s with
        ok := decide (16 ≤ s.inBits.length ∧
          beBits 16 (csum (s.inBits.take (s.inBits.length - 16))) = s.inBits.drop (s.inBits.length - 16))
        out := .bits s.inBits
        result := .done } ∧
    exec .ecSumStrip s = .next { s with out := .bits (s.inBits.take (s.inBits.length - 16)), result := .done }

/-- With crc32 computed by the window loop of R144 and the generator as R143 writes it: EC.CRC.ENC leaves IN followed by
crc32(IN); EC.CRC.CHK leaves IN in OUT and sets OK exactly when IN has at least 32 bits and the CRC of all but the
last 32 equals the last 32; EC.CRC.STRIP leaves IN without its last 32 bits, the empty sequence for fewer. Nothing
else changes. (Formalises R146, R147, R148.) -/
def Obligations.EcCrcResults : Prop :=
  ∀ s : State,
    exec .ecCrcEnc s = .next { s with out := .bits (s.inBits ++ crc s.inBits), result := .done } ∧
    exec .ecCrcChk s =
      .next { s with
        ok := decide (32 ≤ s.inBits.length ∧
          crc (s.inBits.take (s.inBits.length - 32)) = s.inBits.drop (s.inBits.length - 32))
        out := .bits s.inBits
        result := .done } ∧
    exec .ecCrcStrip s = .next { s with out := .bits (s.inBits.take (s.inBits.length - 32)), result := .done }

/-- OUT of EC.HAM.ENC is a word of m + r bits for the least r with 2^r ≥ m + r + 1, whose positions that are no power of
two hold the data bits in order and whose number of 1s over the controlled set C(p) of every parity position p is
even. Nothing else changes. (Formalises R151, R153.) -/
def Obligations.EcHammingEncode : Prop :=
  ∀ s : State,
    ∃ (c : BitSeq) (r : Nat),
      exec .ecHamEnc s = .next { s with out := .bits c, result := .done } ∧
      c.length = s.inBits.length + r ∧ s.inBits.length + r + 1 ≤ 2 ^ r ∧
      (∀ q, q < r → 2 ^ q < s.inBits.length + q + 1) ∧
      dataBits c = s.inBits ∧
      ∀ p, powerOfTwo p → p ≤ c.length → onesOver c p % 2 = 0

/-- With the syndrome the sum of the powers of two p ≤ n whose controlled set holds an odd number of 1s: when 1 ≤ syndrome
≤ n, that position is flipped and CORRECTED is 1, else nothing is flipped and CORRECTED is 0; OUT is the bits at the
positions that are no power of two. Nothing else changes; there is no fault. (Formalises R155.) -/
def Obligations.EcHammingDecode : Prop :=
  ∀ s : State,
    exec .ecHamDec s =
      .next { s with
        corrected := decide (1 ≤ syndrome s.inBits ∧ syndrome s.inBits ≤ s.inBits.length)
        out := .bits (dataBits (if 1 ≤ syndrome s.inBits ∧ syndrome s.inBits ≤ s.inBits.length
          then s.inBits.modify (syndrome s.inBits - 1) (fun x => !x) else s.inBits))
        result := .done }

/-- For parity, checksum and CRC and every payload: CHK of the encoder's OUT sets OK to 1, and STRIP of the encoder's OUT
leaves the payload. (From 41_error_control.md R158.) -/
def Obligations.CodeWordsVerifyAndStrip : Prop :=
  ∀ (s : State) (enc chk strip : Instr),
    (enc, chk, strip) ∈ [(Instr.ecParEnc, Instr.ecParChk, Instr.ecParStrip),
        (Instr.ecSumEnc, Instr.ecSumChk, Instr.ecSumStrip), (Instr.ecCrcEnc, Instr.ecCrcChk, Instr.ecCrcStrip)] →
    ∃ t u v, exec enc s = .next t ∧ exec chk t.chain = .next u ∧ u.ok = true ∧
      exec strip t.chain = .next v ∧ v.out = .bits s.inBits

/-- For parity and checksum, every payload and every position of the encoder's OUT, the redundancy included: CHK of the
word with that one bit flipped sets OK to 0. (From 41_error_control.md R158, 41_error_control.md R159.) -/
def Obligations.SingleFlipFailsParityAndChecksum : Prop :=
  ∀ (s : State) (enc chk : Instr),
    (enc, chk) ∈ [(Instr.ecParEnc, Instr.ecParChk), (Instr.ecSumEnc, Instr.ecSumChk)] →
    ∃ t c, exec enc s = .next t ∧ t.out = .bits c ∧
      ∀ e, e < c.length →
        ∃ u, exec chk { t with inBits := c.modify e (fun x => !x) } = .next u ∧ u.ok = false

/-- OUT of EC.CRC.ENC is the payload and 32 bits r; EC.CRC.ENC of that word appends 32 zeros (the word is divisible by the
generator); and EC.CRC.CHK of the word with any one bit flipped sets OK to 0. (Formalises R149.) -/
def Obligations.CrcCodeWordLaws : Prop :=
  ∀ s : State,
    ∃ t r, exec .ecCrcEnc s = .next t ∧ t.out = .bits (s.inBits ++ r) ∧ r.length = 32 ∧
      (∃ u, exec .ecCrcEnc t.chain = .next u ∧ u.out = .bits (s.inBits ++ r ++ zeros 32)) ∧
      ∀ e, e < s.inBits.length + 32 →
        ∃ u, exec .ecCrcChk { t with inBits := (s.inBits ++ r).modify e (fun x => !x) } = .next u ∧ u.ok = false

/-- For every payload of any length: EC.HAM.DEC of the encoder's OUT leaves the payload with CORRECTED = 0, and for every
position of the code word, EC.HAM.DEC of the word with that bit flipped leaves the payload with CORRECTED = 1.
(Formalises R156.) -/
def Obligations.HammingCorrectsEverySingleFlip : Prop :=
  ∀ s : State,
    ∃ t c, exec .ecHamEnc s = .next t ∧ t.out = .bits c ∧
      (∃ u, exec .ecHamDec t.chain = .next u ∧ u.out = .bits s.inBits ∧ u.corrected = false) ∧
      ∀ e, e < c.length →
        ∃ u, exec .ecHamDec { t with inBits := c.modify e (fun x => !x) } = .next u ∧
          u.out = .bits s.inBits ∧ u.corrected = true

/-- LC.NRZ.ENC leaves S copies of +V for a 1 and of −V for a 0. LC.MAN.ENC, for an even S, leaves S/2 copies of +V then −V
for a 1 and the reverse for a 0, and for an odd S raises InvalidParameter. LC.AMI.ENC runs R178's loop, its polarity
starting at +1. Nothing else changes. That OUT keeps its contents after the fault is the model's reading of R273 and
R280 against R13 (log 11, DEDUCED). (From 42_line_coding.md R172, 42_line_coding.md R174, 42_line_coding.md R175,
42_line_coding.md R178, 60_exceptions.md R280.) -/
def Obligations.LineEncodersResult : Prop :=
  ∀ s : State,
    exec .lcNrzEnc s =
      .next { s with
        out := .samples (s.inBits.flatMap fun x =>
          List.replicate s.params.samples (if x then s.params.lineAmp else s.params.lineAmp.neg))
        result := .done } ∧
    (s.params.samples % 2 = 0 →
      exec .lcManEnc s =
        .next { s with
          out := .samples (s.inBits.flatMap fun x =>
            List.replicate (s.params.samples / 2) (if x then s.params.lineAmp else s.params.lineAmp.neg) ++
            List.replicate (s.params.samples / 2) (if x then s.params.lineAmp.neg else s.params.lineAmp))
          result := .done }) ∧
    (s.params.samples % 2 = 1 →
      exec .lcManEnc s = .next { s with result := .fault ⟨.invalidParameter, .param .samples⟩ }) ∧
    exec .lcAmiEnc s =
      .next { s with out := .samples (s.inBits.foldl (markOne s.params) ([], true)).1, result := .done }

/-- For S ≥ 1, each line decoder leaves floor(len(IN)/S) bits and sets WARN when S does not divide the length. Bit i of
LC.NRZ.DEC is 1 exactly when the mean of block i is positive; of LC.MAN.DEC, for an even S, exactly when the first
half's mean is greater than the second half's (an odd S raises InvalidParameter); of LC.AMI.DEC exactly when the mean
absolute value is above V/2. Nothing else changes. That OUT keeps its contents after the fault is the model's reading
of R273 and R280 against R13 (log 11, DEDUCED). (From 42_line_coding.md R173, 42_line_coding.md R174,
42_line_coding.md R176, 42_line_coding.md R179, 60_exceptions.md R280.) -/
def Obligations.LineDecodersResult : Prop :=
  ∀ s : State, 1 ≤ s.params.samples →
    (∃ b : BitSeq,
      exec .lcNrzDec s =
        .next { s with
          warn := s.warn || decide (s.inSig.length % s.params.samples ≠ 0), out := .bits b, result := .done } ∧
      b.length = s.inSig.length / s.params.samples ∧
      ∀ i, i < b.length → (b.getD i false = true ↔ 0 < blockMean s.params s.inSig i)) ∧
    (s.params.samples % 2 = 0 →
      ∃ b : BitSeq,
        exec .lcManDec s =
          .next { s with
            warn := s.warn || decide (s.inSig.length % s.params.samples ≠ 0), out := .bits b, result := .done } ∧
        b.length = s.inSig.length / s.params.samples ∧
        ∀ i, i < b.length →
          (b.getD i false = true ↔
            (∑ j ∈ Finset.range (s.params.samples / 2),
              valueAt s.inSig (s.params.samples * i + s.params.samples / 2 + j)) / ((s.params.samples / 2 : ℕ) : ℝ) <
            (∑ j ∈ Finset.range (s.params.samples / 2),
              valueAt s.inSig (s.params.samples * i + j)) / ((s.params.samples / 2 : ℕ) : ℝ))) ∧
    (s.params.samples % 2 = 1 →
      exec .lcManDec s = .next { s with result := .fault ⟨.invalidParameter, .param .samples⟩ }) ∧
    ∃ b : BitSeq,
      exec .lcAmiDec s =
        .next { s with
          warn := s.warn || decide (s.inSig.length % s.params.samples ≠ 0), out := .bits b, result := .done } ∧
      b.length = s.inSig.length / s.params.samples ∧
      ∀ i, i < b.length →
        (b.getD i false = true ↔ s.params.lineAmp.toReal / 2 < blockMeanAbs s.params s.inSig i)

/-- For V > 0, S ≥ 1 (S even for Manchester), each line code and every bit sequence of any length: the decoder run on the
encoder's OUT leaves the sequence, and WARN is as it was. (Formalises R180.) -/
def Obligations.LineCodeRoundTrip : Prop :=
  ∀ (s : State) (c : LineCode), 0 < s.params.lineAmp.toReal → 1 ≤ s.params.samples → lineReady s.params c →
    ∃ t u, exec (lineEncOf c) s = .next t ∧ exec (lineDecOf c) t.chain = .next u ∧
      u.out = .bits s.inBits ∧ u.warn = s.warn

/-- On a build with F_C ≥ 1 and S > 4·F_C: sample j of bit i of CM.ASK.MOD is A_MAX·sin θ(F_C, j) for a 1 and 0 for a 0;
of CM.FSK.MOD it is A_MAX·sin θ(f, j), f = 2·F_C for a 1 and F_C for a 0. The signal has S samples a bit; nothing else
changes. (Formalises R193, R196.) -/
def Obligations.AskAndFskModulate : Prop :=
  ∀ s : State, 1 ≤ s.params.carrierFreq → 4 * s.params.carrierFreq < s.params.samples →
    (∃ x : List Sample,
      exec .cmAskMod s = .next { s with out := .samples x, result := .done } ∧
      x.length = s.params.samples * s.inBits.length ∧
      ∀ i j, i < s.inBits.length → j < s.params.samples →
        valueAt x (s.params.samples * i + j) =
          if s.inBits.getD i false
          then s.params.carrierAmp.toReal * Real.sin (theta s.params s.params.carrierFreq j) else 0) ∧
    ∃ x : List Sample,
      exec .cmFskMod s = .next { s with out := .samples x, result := .done } ∧
      x.length = s.params.samples * s.inBits.length ∧
      ∀ i j, i < s.inBits.length → j < s.params.samples →
        valueAt x (s.params.samples * i + j) =
          s.params.carrierAmp.toReal *
            Real.sin (theta s.params
              (if s.inBits.getD i false then 2 * s.params.carrierFreq else s.params.carrierFreq) j)

/-- On a build with F_C ≥ 1 and S > 4·F_C: both leave one bit a complete block and set WARN when S does not divide the
length. Bit i of CM.ASK.DEM is 1 exactly when the mean absolute sample of block i is above T_ASK; of CM.FSK.DEM
exactly when the correlation with the sine at 2·F_C has the greater magnitude. Nothing else changes. (Formalises R194,
R197.) -/
def Obligations.AskAndFskDemodulate : Prop :=
  ∀ s : State, 1 ≤ s.params.carrierFreq → 4 * s.params.carrierFreq < s.params.samples →
    (∃ b : BitSeq,
      exec .cmAskDem s =
        .next { s with
          warn := s.warn || decide (s.inSig.length % s.params.samples ≠ 0), out := .bits b, result := .done } ∧
      b.length = s.inSig.length / s.params.samples ∧
      ∀ i, i < b.length →
        (b.getD i false = true ↔ s.params.askThreshold.toReal < blockMeanAbs s.params s.inSig i)) ∧
    ∃ b : BitSeq,
      exec .cmFskDem s =
        .next { s with
          warn := s.warn || decide (s.inSig.length % s.params.samples ≠ 0), out := .bits b, result := .done } ∧
      b.length = s.inSig.length / s.params.samples ∧
      ∀ i, i < b.length →
        (b.getD i false = true ↔
          |blockSum s.params s.inSig i fun j v => v * Real.sin (theta s.params s.params.carrierFreq j)| <
          |blockSum s.params s.inSig i fun j v => v * Real.sin (theta s.params (2 * s.params.carrierFreq) j)|)

/-- For the four table schemes on a build with F_C ≥ 1, S > 4·F_C and an exhaustive table: with k the scheme's width, OUT
has S·ceil(len(IN)/k) samples, and sample j of symbol i is A_MAX·a·cos(θ(F_C, j) + φ) for the table entry (a, φ) of
the i-th k-bit tuple of IN, the last tuple padded with zeros. Nothing else changes. (Formalises R199.) -/
def Obligations.TableModulate : Prop :=
  ∀ (s : State) (sch : Scheme), hasTable sch → carrierReady s.params sch →
    ∃ x : List Sample,
      exec (modOf sch) s = .next { s with out := .samples x, result := .done } ∧
      x.length = s.params.samples * ((s.inBits.length + symbolWidth sch - 1) / symbolWidth sch) ∧
      ∀ i j, i < (s.inBits.length + symbolWidth sch - 1) / symbolWidth sch → j < s.params.samples →
        ∃ e : SymEntry,
          (symTab s.params sch)[val (((s.inBits ++ zeros (symbolWidth sch)).drop (symbolWidth sch * i)).take
            (symbolWidth sch))]? = some e ∧
          ∀ a φ : ℝ, a * Real.cos φ = e.x.toReal → a * Real.sin φ = e.y.toReal →
            valueAt x (s.params.samples * i + j) =
              s.params.carrierAmp.toReal * a * Real.cos (theta s.params s.params.carrierFreq j + φ)

/-- For the four table schemes on a build with F_C ≥ 1, S > 4·F_C, A_MAX > 0 and an exhaustive table: OUT has k bits for
each complete block, WARN is set when S does not divide the length, and the tuple of block i is the least tuple value
whose table point has the least Euclidean distance to the measured (I, Q)/A_MAX. Nothing else changes. R200's detour
through amplitude and phase is the identity over the reals and is not restated (log 20). (From
43_carrier_modulation.md R200, 43_carrier_modulation.md R201.) -/
def Obligations.TableDemodulate : Prop :=
  ∀ (s : State) (sch : Scheme), hasTable sch → carrierReady s.params sch → 0 < s.params.carrierAmp.toReal →
    ∃ b : BitSeq,
      exec (demOf sch) s =
        .next { s with
          warn := s.warn || decide (s.inSig.length % s.params.samples ≠ 0), out := .bits b, result := .done } ∧
      b.length = symbolWidth sch * (s.inSig.length / s.params.samples) ∧
      ∀ i, i < s.inSig.length / s.params.samples →
        ∃ (g : Nat) (e : SymEntry),
          (symTab s.params sch)[g]? = some e ∧
          (b.drop (symbolWidth sch * i)).take (symbolWidth sch) = beBits (symbolWidth sch) g ∧
          ∀ (h : Nat) (f : SymEntry), (symTab s.params sch)[h]? = some f →
            entryDistance (blockI s.params s.inSig i) (blockQ s.params s.inSig i) e ≤
              entryDistance (blockI s.params s.inSig i) (blockQ s.params s.inSig i) f ∧
            (h < g →
              entryDistance (blockI s.params s.inSig i) (blockQ s.params s.inSig i) e <
                entryDistance (blockI s.params s.inSig i) (blockQ s.params s.inSig i) f)

/-- FRM.BS with FLAG = ESC; LC.MAN with an odd S; each CM operation and each linear-path AB operation with F_C = 0 or S ≤
4·F_C; each table CM operation with a table that is not exhaustive; each complex-path AB operation with CFG_VALID = 1
where its demodulator or modulator, or Manchester as CFG.LINE with an odd S, does so, the part that runs first naming
the parameter: the result is InvalidParameter with the parameter's name and nothing else changes. That such a build is
met when the operation runs, and which parameter is named, is the model's choice (log 13): the spec meets it at build
time. That OUT keeps its contents after the fault is the model's reading of R273 and R280 against R13 (log 11,
DEDUCED). (From 60_exceptions.md R272, 60_exceptions.md R279, 60_exceptions.md R280, 60_exceptions.md R283.) -/
def Obligations.ParameterFaultsNameTheParameter : Prop :=
  (∀ s : State, s.params.flag = s.params.esc → ∀ i ∈ [Instr.frmBsEnc, Instr.frmBsDec],
    exec i s = .next { s with result := .fault ⟨.invalidParameter, .param .esc⟩ }) ∧
  (∀ s : State, s.params.samples % 2 = 1 → ∀ i ∈ [Instr.lcManEnc, Instr.lcManDec],
    exec i s = .next { s with result := .fault ⟨.invalidParameter, .param .samples⟩ }) ∧
  (∀ (s : State) (sch : Scheme) (i : Instr),
    i = modOf sch ∨ i = demOf sch ∨ (¬ onComplexPath sch ∧ (i = forwardOf sch ∨ i = reverseOf sch)) →
    (s.params.carrierFreq = 0 →
      exec i s = .next { s with result := .fault ⟨.invalidParameter, .param .carrierFreq⟩ }) ∧
    (s.params.carrierFreq ≠ 0 → s.params.samples ≤ 4 * s.params.carrierFreq →
      exec i s = .next { s with result := .fault ⟨.invalidParameter, .param .samples⟩ })) ∧
  (∀ (s : State) (sch : Scheme), hasTable sch → s.params.carrierFreq ≠ 0 →
    4 * s.params.carrierFreq < s.params.samples → (symTab s.params sch).length ≠ 2 ^ symbolWidth sch →
    ∀ i ∈ [modOf sch, demOf sch],
      exec i s = .next { s with result := .fault ⟨.invalidParameter, .param (.symtab sch)⟩ }) ∧
  ∀ (s : State) (sch : Scheme), onComplexPath sch → s.cfgValid = true →
    (s.cfg.line = .manchester → s.params.samples % 2 = 1 →
      exec (forwardOf sch) s = .next { s with result := .fault ⟨.invalidParameter, .param .samples⟩ } ∧
      (carrierReady s.params sch →
        exec (reverseOf sch) s = .next { s with result := .fault ⟨.invalidParameter, .param .samples⟩ })) ∧
    ∀ i, i = reverseOf sch ∨ (i = forwardOf sch ∧ lineReady s.params s.cfg.line) →
      (s.params.carrierFreq = 0 →
        exec i s = .next { s with result := .fault ⟨.invalidParameter, .param .carrierFreq⟩ }) ∧
      (s.params.carrierFreq ≠ 0 → s.params.samples ≤ 4 * s.params.carrierFreq →
        exec i s = .next { s with result := .fault ⟨.invalidParameter, .param .samples⟩ }) ∧
      (s.params.carrierFreq ≠ 0 → 4 * s.params.carrierFreq < s.params.samples → hasTable sch →
        (symTab s.params sch).length ≠ 2 ^ symbolWidth sch →
        exec i s = .next { s with result := .fault ⟨.invalidParameter, .param (.symtab sch)⟩ })

/-- On a build in the domains of R279 for the carrier (A_MAX > 0 and, with it in R279's list of amplitudes, V > 0, F_C ≥
1, S > 4·F_C, 0 ≤ T_ASK < A_MAX·μ, exhaustive tables with distinct points), for each of the six schemes and every bit
sequence b: the demodulator run on the modulator's OUT leaves b followed by zeros up to a multiple of the scheme's
width k, so b itself when k divides its length. (Formalises R211.) -/
def Obligations.CarrierRoundTrip : Prop :=
  ∀ (s : State) (sch : Scheme),
    s.params.ampsOk = true → s.params.carrierOk = true → s.params.askOk = true → s.params.tablesOk = true →
    ∃ t u, exec (modOf sch) s = .next t ∧ exec (demOf sch) t.chain = .next u ∧
      u.out = .bits (s.inBits ++ zeros
        (symbolWidth sch * ((s.inBits.length + symbolWidth sch - 1) / symbolWidth sch) - s.inBits.length))

/-- On a build with F_C ≥ 1 and S > 4·F_C: OUT has the length of IN, and its sample n is max(IN[n], 0)·sin θ(F_C, n mod S)
for AB.ASK.FWD and IN[n]·sin θ(F_C, n mod S) for AB.BPSK.FWD. Nothing else changes. (Formalises R222, R223.) -/
def Obligations.LinearBridgeForward : Prop :=
  ∀ s : State, 1 ≤ s.params.carrierFreq → 4 * s.params.carrierFreq < s.params.samples →
    (∃ y : List Sample,
      exec .abAskFwd s = .next { s with out := .samples y, result := .done } ∧ y.length = s.inSig.length ∧
      ∀ n, n < y.length →
        valueAt y n =
          max (valueAt s.inSig n) 0 * Real.sin (theta s.params s.params.carrierFreq (n % s.params.samples))) ∧
    ∃ y : List Sample,
      exec .abBpskFwd s = .next { s with out := .samples y, result := .done } ∧ y.length = s.inSig.length ∧
      ∀ n, n < y.length →
        valueAt y n = valueAt s.inSig n * Real.sin (theta s.params s.params.carrierFreq (n % s.params.samples))

/-- On a build with F_C ≥ 1, S > 4·F_C and the centred window: with f the centred moving average over max(1, floor(S/2))
samples of z[n] = IN[n]·sin θ(F_C, n mod S), missing neighbours zero, OUT has the length of IN and its sample n is
f[n] for AB.BPSK.REV and +1 if f[n] > T_BRIDGE else −1 for AB.ASK.REV. Nothing else changes. (Formalises R225, R226.) -/
def Obligations.LinearBridgeReverse : Prop :=
  ∀ s : State, 1 ≤ s.params.carrierFreq → 4 * s.params.carrierFreq < s.params.samples →
    s.params.lpfAlign = .centred →
    (∃ y : List Sample,
      exec .abAskRev s = .next { s with out := .samples y, result := .done } ∧ y.length = s.inSig.length ∧
      ∀ n, n < y.length →
        valueAt y n =
          if s.params.bridgeThreshold.toReal <
            centredFilter (max 1 (s.params.samples / 2)) (mixedAt s.params s.inSig) n then 1 else -1) ∧
    ∃ y : List Sample,
      exec .abBpskRev s = .next { s with out := .samples y, result := .done } ∧ y.length = s.inSig.length ∧
      ∀ n, n < y.length →
        valueAt y n = centredFilter (max 1 (s.params.samples / 2)) (mixedAt s.params s.inSig) n

/-- For FSK, QPSK, 8PSK and 16-QAM, with a valid configuration, on a build that suits the scheme and the line code of
CFG.LINE: the forward operation leaves in OUT and WARN what the line decoder on IN and then the scheme's modulator on
its OUT leave, and the reverse operation what the demodulator and then the line encoder leave. Nothing else changes.
(From 44_bridge_channel.md R227, 44_bridge_channel.md R228.) -/
def Obligations.ComplexBridgeComposes : Prop :=
  ∀ (s : State) (sch : Scheme), onComplexPath sch → s.cfgValid = true → carrierReady s.params sch →
    lineReady s.params s.cfg.line →
    (∃ t u, exec (lineDecOf s.cfg.line) s = .next t ∧ exec (modOf sch) t.chain = .next u ∧
      u.result = .done ∧
      exec (forwardOf sch) s = .next { s with out := u.out, warn := u.warn, result := .done }) ∧
    ∃ t u, exec (demOf sch) s = .next t ∧ exec (lineEncOf s.cfg.line) t.chain = .next u ∧
      u.result = .done ∧
      exec (reverseOf sch) s = .next { s with out := u.out, warn := u.warn, result := .done }

/-- While CFG_VALID = 0, each of the eight complex-path bridge operations has the result NotConfigured and changes nothing
else, whatever the build parameters are: NotConfigured comes before InvalidParameter. That OUT keeps its contents
after the fault is the model's reading of R273 and R280 against R13 (log 11, DEDUCED). (From 60_exceptions.md R276,
60_exceptions.md R280, 60_exceptions.md R283.) -/
def Obligations.ComplexBridgeNeedsConfiguration : Prop :=
  ∀ (s : State) (sch : Scheme), onComplexPath sch → s.cfgValid = false →
    ∀ i ∈ [forwardOf sch, reverseOf sch], exec i s = .next { s with result := .fault ⟨.notConfigured, .none⟩ }

/-- With σ the real given with the command: for σ ≤ 0 OUT is IN and no draw is taken. For σ > 0, and for a sigma that is
not a number, OUT has the length of IN, sample n of OUT is IN[n] plus draw n, and one draw a sample is taken: the
supplied ones first, then the free values Config.noise from the counter on, which the counter passes. So the operation
runs for every operand. Nothing else changes. That the draws stand in State, and that draws beyond the supplied ones
are free values, is the model's (log 7), and so is that a sigma that is not a number, on which R237 is silent, adds
draws to the signal (log 23, DESIGN CHOICE). (From 44_bridge_channel.md R237.) -/
def Obligations.ChannelNoiseResult : Prop :=
  ∀ s : State,
    (∀ q : Sample, s.inSigma = .real q → q.toReal ≤ 0 →
      exec .chNoise s = .next { s with out := .samples s.inSig, result := .done }) ∧
    (s.inSigma = .notReal ∨ (∃ q : Sample, s.inSigma = .real q ∧ 0 < q.toReal) →
      ∃ y : List Sample,
        exec .chNoise s =
          .next { s with
            out := .samples y, noise := s.noise.drop s.inSig.length,
            noiseIx := s.noiseIx + (s.inSig.length - s.noise.length), result := .done } ∧
        y.length = s.inSig.length ∧
        ∀ n, n < y.length →
          valueAt y n = valueAt s.inSig n +
            if n < s.noise.length then valueAt s.noise n
            else (Config.noise (s.noiseIx + (n - s.noise.length))).toReal)

/-- TXT.ENC of a text over code points 0 to 255 leaves be_8 of each character; with a wider character its result is
InvalidChar with the index of the first one. TXT.DEC leaves the character of each complete byte and sets WARN when 8
does not divide the length. Nothing else changes. That OUT keeps its contents after the fault is the model's reading
of R273 and R280 against R13 (log 11, DEDUCED). (From 45_pipeline.md R241, 45_pipeline.md R242, 60_exceptions.md R272,
60_exceptions.md R278, 60_exceptions.md R283.) -/
def Obligations.TextConversionResults : Prop :=
  ∀ s : State,
    (charsOk s.inText →
      exec .txtEnc s = .next { s with out := .bits (s.inText.flatMap (beBits 8)), result := .done }) ∧
    (∀ i, 255 < s.inText.getD i 0 → (∀ j, j < i → s.inText.getD j 0 ≤ 255) →
      exec .txtEnc s = .next { s with result := .fault ⟨.invalidChar, .char i⟩ }) ∧
    exec .txtDec s =
      .next { s with
        warn := s.warn || decide (s.inBits.length % 8 ≠ 0)
        out := .text ((List.range (s.inBits.length / 8)).map fun k => val ((s.inBits.drop (8 * k)).take 8))
        result := .done }

/-- For every text over the code points 0 to 255, TXT.ENC and then TXT.DEC of its OUT both run and leave the text, and
WARN as it was. (Formalises R243.) -/
def Obligations.TextRoundTrip : Prop :=
  ∀ s : State, charsOk s.inText →
    ∃ t u, exec .txtEnc s = .next t ∧ exec .txtDec t.chain = .next u ∧ u.out = .text s.inText ∧ u.warn = s.warn

/-- PL.CONFIGURE while PSTATE is not Idle has the result Busy(PSTATE). In Idle: a record with a bad field has the result
InvalidConfig of the first one in R274's order; one that asks for Manchester while S is odd InvalidParameter; in these
cases nothing else changes. The packed word of a legal configuration, with its σ, replaces CFG as a whole and sets
CFG_VALID; nothing else changes. That a fault is a value of the result register, with OUT as it was, is the model's
(log 11, DEDUCED; log 12, DESIGN CHOICE). (From 45_pipeline.md R247, 60_exceptions.md R272, 60_exceptions.md R274,
60_exceptions.md R280, 60_exceptions.md R283.) -/
def Obligations.ConfigureResult : Prop :=
  ∀ s : State,
    (s.pstate ≠ .idle →
      exec .plConfigure s = .next { s with result := .fault ⟨.busy, .pstate s.pstate⟩ }) ∧
    (∀ f, s.pstate = .idle → firstBadField s.inCfgw.toNat s.inSigma = some f →
      exec .plConfigure s = .next { s with result := .fault ⟨.invalidConfig, .field f⟩ }) ∧
    (s.pstate = .idle → firstBadField s.inCfgw.toNat s.inSigma = none → s.inCfgw.toNat % 4 = 1 →
      s.params.samples % 2 = 1 →
      exec .plConfigure s = .next { s with result := .fault ⟨.invalidParameter, .param .samples⟩ }) ∧
    ∀ c : PipeCfg, s.pstate = .idle → s.inCfgw = packed c → s.inSigma = .real c.sigma → 0 ≤ c.sigma.toReal →
      lineReady s.params c.line →
      exec .plConfigure s = .next { s with cfg := c, cfgValid := true, result := .done }

/-- PL.TRANSMIT while PSTATE is not Idle has the result Busy(PSTATE); in Idle and unconfigured NotConfigured; else with a
wide character InvalidChar of the first one; in these cases nothing else changes. Else it is accepted: SNAP is CFG,
WARN is 0, PSTATE is Transmitting and the sequencer is at stage T1 with the text; nothing else changes. That a fault
is a value of the result register, with OUT as it was, is logs 11 and 12. (From 45_pipeline.md R249, 60_exceptions.md
R283.) -/
def Obligations.TransmitAcceptance : Prop :=
  ∀ s : State,
    (s.pstate ≠ .idle → exec .plTransmit s = .next { s with result := .fault ⟨.busy, .pstate s.pstate⟩ }) ∧
    (s.pstate = .idle → s.cfgValid = false →
      exec .plTransmit s = .next { s with result := .fault ⟨.notConfigured, .none⟩ }) ∧
    (∀ i, s.pstate = .idle → s.cfgValid = true → 255 < s.inText.getD i 0 →
      (∀ j, j < i → s.inText.getD j 0 ≤ 255) →
      exec .plTransmit s = .next { s with result := .fault ⟨.invalidChar, .char i⟩ }) ∧
    (s.pstate = .idle → s.cfgValid = true → charsOk s.inText →
      exec .plTransmit s =
        .next { s with
          snap := s.cfg, warn := false, pstate := .transmitting, flight := some (.t1 s.inText), result := .done })

/-- For an index 0 to 3, PL.INSPECT leaves in OUT a copy of SIG_BASE, SIG_MOD, SIG_RX or SIG_DEMOD in that order, whatever
PSTATE is; above 3 its result is InvalidCommand with the index. Nothing else changes. (Formalises R253.) -/
def Obligations.InspectResult : Prop :=
  ∀ s : State,
    (s.inIndex ≤ 3 →
      exec .plInspect s =
        .next { s with
          out := .samples ([s.sigBase, s.sigMod, s.sigRx, s.sigDemod].getD s.inIndex []), result := .done }) ∧
    (3 < s.inIndex →
      exec .plInspect s = .next { s with result := .fault ⟨.invalidCommand, .index s.inIndex⟩ })

/-- In a step of the sequencer, each stage runs the operation of R249 and R72 on the output of the stage before: TXT.ENC,
the encoders of SNAP.EC, SNAP.FRAMING and SNAP.LINE, AB.FWD of SNAP.CARRIER with SNAP as CFG exactly when CARRIER_EN =
1 and CARRIER is not none and a copy otherwise (R248), CH.NOISE at SNAP.SIGMA, and back: AB.REV or a copy, the
decoders of SNAP.LINE and SNAP.FRAMING, CHK and STRIP or EC.HAM.DEC with the status of R251's table, TXT.DEC. An
operation carried out gives its output to the next stage and keeps its warning; one that faults ends the run. T6 sets
PSTATE to Receiving (the spec's decision D49) and takes the noise draws (log 7); R4 writes the block's OK or CORRECTED
(log 19); R6 writes the six results, raises the event and sets PSTATE to Idle. Nothing else changes. One stage a step
is the model's (log 15), and so is that any other fault than R254's ends the run too (log 28). (From 30_encoding.md
R72, 45_pipeline.md R248, 45_pipeline.md R249, 45_pipeline.md R250, 45_pipeline.md R251, 45_pipeline.md R254.) -/
def Obligations.SequencerTakesTheStagesInOrder : Prop :=
  ∀ s r : State, s.hostActs.headD .pass = .pass → r = { s with hostActs := s.hostActs.tail, event := none } →
    (∀ t, s.flight = some (.t1 t) → stageRuns s r .txtEnc { s with inText := t } .bits .t2) ∧
    (∀ b, s.flight = some (.t2 b) → stageRuns s r (ecEncOf s.snap.ec) { s with inBits := b } .bits .t3) ∧
    (∀ b, s.flight = some (.t3 b) → stageRuns s r (frameEncOf s.snap.framing) { s with inBits := b } .bits .t4) ∧
    (∀ b, s.flight = some (.t4 b) → stageRuns s r (lineEncOf s.snap.line) { s with inBits := b } .samples .t5) ∧
    (∀ s0, s.flight = some (.t5 s0) →
      (∀ sch, s.snap.carrierEn = true → s.snap.carrier = some sch →
        stageRuns s r (forwardOf sch) { s with inSig := s0, cfg := s.snap, cfgValid := true } .samples (.t6 s0)) ∧
      (s.snap.carrierEn = false ∨ s.snap.carrier = none → step s = .next { r with flight := some (.t6 s0 s0) })) ∧
    (∀ s0 s1, s.flight = some (.t6 s0 s1) →
      ∃ u s2, exec .chNoise { s with inSig := s1, inSigma := .real s.snap.sigma } = .next u ∧ u.out = .samples s2 ∧
        step s =
          .next { r with
            flight := some (.r1 s0 s1 s2), pstate := .receiving, noise := u.noise, noiseIx := u.noiseIx }) ∧
    (∀ s0 s1 s2, s.flight = some (.r1 s0 s1 s2) →
      (∀ sch, s.snap.carrierEn = true → s.snap.carrier = some sch →
        stageRuns s r (reverseOf sch) { s with inSig := s2, cfg := s.snap, cfgValid := true } .samples
          (.r2 s0 s1 s2)) ∧
      (s.snap.carrierEn = false ∨ s.snap.carrier = none →
        step s = .next { r with flight := some (.r2 s0 s1 s2 s2) })) ∧
    (∀ s0 s1 s2 s3, s.flight = some (.r2 s0 s1 s2 s3) →
      stageRuns s r (lineDecOf s.snap.line) { s with inSig := s3 } .bits (.r3 s0 s1 s2 s3)) ∧
    (∀ s0 s1 s2 s3 b, s.flight = some (.r3 s0 s1 s2 s3 b) →
      stageRuns s r (frameDecOf s.snap.framing) { s with inBits := b } .bits (.r4 s0 s1 s2 s3)) ∧
    (∀ s0 s1 s2 s3 b, s.flight = some (.r4 s0 s1 s2 s3 b) →
      (∀ chk strip good bad,
        (s.snap.ec, chk, strip, good, bad) ∈
          [(ErrorControl.none, Instr.ecNoneChk, Instr.ecNoneStrip, Status.noVerification, Status.noVerification),
            (.parity, .ecParChk, .ecParStrip, .success, .parityError),
            (.checksum, .ecSumChk, .ecSumStrip, .success, .checksumError),
            (.crc, .ecCrcChk, .ecCrcStrip, .success, .crcError)] →
        ∃ u v b5, exec chk { s with inBits := b } = .next u ∧ exec strip { s with inBits := b } = .next v ∧
          v.out = .bits b5 ∧
          step s = .next { r with flight := some (.r5 s0 s1 s2 s3 b5 (if u.ok then good else bad)), ok := u.ok }) ∧
      (s.snap.ec = .hamming →
        ∃ u b5, exec .ecHamDec { s with inBits := b } = .next u ∧ u.out = .bits b5 ∧
          step s = .next { r with flight := some (.r5 s0 s1 s2 s3 b5 .hammingOk), corrected := u.corrected })) ∧
    (∀ s0 s1 s2 s3 b st, s.flight = some (.r5 s0 s1 s2 s3 b st) →
      stageRuns s r .txtDec { s with inBits := b } .text fun t => .r6 s0 s1 s2 s3 t st) ∧
    (∀ s0 s1 s2 s3 t st, s.flight = some (.r6 s0 s1 s2 s3 t st) →
      step s =
        .next { r with
          sigBase := s0, sigMod := s1, sigRx := s2, sigDemod := s3, rtext := t, status := some st,
          flight := none, pstate := .idle, event := some (.done t st) })

/-- At stage T3 under character count, with a payload of more than 254 bytes, the sequencer's step ends the run: no result
buffer, RTEXT or STATUS is written, the completion event carries LengthOverflow with the count, PSTATE is Idle, and
nothing else changes. R254 lets a model end the run here or refuse at acceptance; that the run ends is log 17
(DEDUCED). (From 45_pipeline.md R254, 60_exceptions.md R281.) -/
def Obligations.LengthOverflowEndsTheRun : Prop :=
  ∀ (s : State) (b : BitSeq), s.hostActs.headD .pass = .pass → s.flight = some (.t3 b) →
    s.snap.framing = .characterCount → 254 < (b.length + 7) / 8 →
    step s =
      .next { s with
        hostActs := s.hostActs.tail, flight := none, pstate := .idle,
        event := some (.failed ⟨.lengthOverflow, .count ((b.length + 7) / 8 + 1)⟩) }

/-- PL.TRANSMIT is accepted exactly with a run at stage T1. From any state with a run in flight and PSTATE not Idle, and
any finite host script, the completion event is raised after some k steps, at most one for each action of the script
and one for each stage left; before it no event is raised and the run stays in flight; with it the run is over and
PSTATE is Idle; and in the state after it the event is over. The script, one stage a step and the event as an edge of
one step are the model's (logs 14, 15, 16). (From 45_pipeline.md R252, 60_exceptions.md R287, 70_reset_and_hazards.md
R324.) -/
def Obligations.EveryRunCompletesOnce : Prop :=
  (∀ s t : State, exec .plTransmit s = .next t → t.result = .done → t.flight = some (.t1 s.inText) ∧ t.pstate ≠ .idle) ∧
  ∀ (s : State) (f : Flight), s.flight = some f → s.pstate ≠ .idle →
    ∃ (k : Nat) (t : State), 1 ≤ k ∧ k ≤ s.hostActs.length + stagesLeft f ∧ steps k s = some t ∧
      t.event ≠ none ∧ t.flight = none ∧ t.pstate = .idle ∧
      (∀ j, 1 ≤ j → j < k → ∃ u, steps j s = some u ∧ u.event = none ∧ u.flight ≠ none) ∧
      ∀ u, step t = .next u → u.event = none

/-- In every step, either none of SIG_BASE, SIG_MOD, SIG_RX, SIG_DEMOD, RTEXT and STATUS changes, or the step is stage R6
of a run: all six take the run's private values, the event DONE carries the text and the status, the run is over and
PSTATE is Idle. (From 45_pipeline.md R250, 20_memory.md R57, 70_reset_and_hazards.md R313.) -/
def Obligations.ResultsPublishedAtomically : Prop :=
  ∀ s t : State, step s = .next t →
    (t.sigBase = s.sigBase ∧ t.sigMod = s.sigMod ∧ t.sigRx = s.sigRx ∧ t.sigDemod = s.sigDemod ∧
      t.rtext = s.rtext ∧ t.status = s.status) ∨
    ∃ s0 s1 s2 s3 text st, s.flight = some (.r6 s0 s1 s2 s3 text st) ∧
      t.sigBase = s0 ∧ t.sigMod = s1 ∧ t.sigRx = s2 ∧ t.sigDemod = s3 ∧ t.rtext = text ∧ t.status = some st ∧
      t.event = some (.done text st) ∧ t.flight = none ∧ t.pstate = .idle

/-- In every step, CFG and CFG_VALID keep their values unless the step is a PL.CONFIGURE (0xC4) from Idle that is carried
out (its result is no fault), which leaves CFG_VALID = 1; and SNAP keeps its value unless the step is a PL.TRANSMIT
(0xC8) from Idle with a valid configuration that is carried out, which leaves SNAP = CFG. The result register is the
model's (log 12). (From 10_state.md R23, 10_state.md R28, 60_exceptions.md R290.) -/
def Obligations.ConfigurationWrittenOnlyWhenIdle : Prop :=
  ∀ s t : State, step s = .next t →
    ((t.cfg = s.cfg ∧ t.cfgValid = s.cfgValid) ∨
      (s.pstate = .idle ∧ s.hostActs.head? = some (.command 0xC4#8) ∧ t.result = .done ∧ t.cfgValid = true)) ∧
    (t.snap = s.snap ∨
      (s.pstate = .idle ∧ s.hostActs.head? = some (.command 0xC8#8) ∧ t.result = .done ∧ s.cfgValid = true ∧
        t.snap = s.cfg))

/-- In a step of the host (any action but letting the sequencer move) while PSTATE is not Idle: the run in flight, PSTATE,
CFG, CFG_VALID, SNAP and the six results keep their values and no event is raised; and PL.CONFIGURE and PL.TRANSMIT
have the result Busy(PSTATE). (From 60_exceptions.md R275, 45_pipeline.md R246, 70_reset_and_hazards.md R312.) -/
def Obligations.HostCannotDisturbARun : Prop :=
  ∀ (s t : State) (a : HostAct) (acts : List HostAct), s.hostActs = a :: acts → a ≠ .pass → s.pstate ≠ .idle →
    step s = .next t →
    t.flight = s.flight ∧ t.pstate = s.pstate ∧ t.cfg = s.cfg ∧ t.cfgValid = s.cfgValid ∧ t.snap = s.snap ∧
    t.sigBase = s.sigBase ∧ t.sigMod = s.sigMod ∧ t.sigRx = s.sigRx ∧ t.sigDemod = s.sigDemod ∧
    t.rtext = s.rtext ∧ t.status = s.status ∧ t.event = none ∧ t.hostActs = acts ∧
    (a = .command 0xC4#8 ∨ a = .command 0xC8#8 → t.result = .fault ⟨.busy, .pstate s.pstate⟩)

/-- Of the 56 operations, only the four CHK change OK, only EC.HAM.DEC changes CORRECTED, only the operations of R284's
table and PL.TRANSMIT change WARN; where one of R284's table changes WARN it is set, and where PL.TRANSMIT changes it
it is cleared. (From 10_state.md R27, 41_error_control.md R160, 60_exceptions.md R284.) -/
def Obligations.FlagsWrittenOnlyByTheirOperations : Prop :=
  ∀ (i : Instr) (s t : State), exec i s = .next t →
    (t.ok = s.ok ∨ i ∈ [Instr.ecNoneChk, .ecParChk, .ecSumChk, .ecCrcChk]) ∧
    (t.corrected = s.corrected ∨ i = .ecHamDec) ∧
    (t.warn = s.warn ∨ (i = .plTransmit ∧ t.warn = false) ∨
      (t.warn = true ∧ i ∈ [Instr.lcNrzDec, .lcManDec, .lcAmiDec, .cmAskDem, .cmFskDem, .cmBpskDem, .cmQpskDem,
        .cm8pskDem, .cmQam16Dem, .abFskFwd, .abFskRev, .abQpskFwd, .abQpskRev, .ab8pskFwd, .ab8pskRev,
        .abQam16Fwd, .abQam16Rev, .frmBsDec, .txtDec]))

/-- Every operation answers a next state in every state, and in it IN in all its kinds, the four signal buffers, RTEXT,
STATUS, the event, the host's script and the build parameters with the symbol tables are as they were. No step of the
machine changes the build parameters or the symbol tables. That every operation answers in every state, on every
build, with a fault as a value of the result register, is the model's (logs 3, 12). (From 10_state.md R31,
20_memory.md R42, 60_exceptions.md R290.) -/
def Obligations.OperationsNeverWriteInputsOrBuild : Prop :=
  (∀ (i : Instr) (s : State), ∃ t, exec i s = .next t ∧
    t.inBits = s.inBits ∧ t.inSig = s.inSig ∧ t.inText = s.inText ∧ t.inCfgw = s.inCfgw ∧ t.inSigma = s.inSigma ∧
    t.inIndex = s.inIndex ∧ t.sigBase = s.sigBase ∧ t.sigMod = s.sigMod ∧ t.sigRx = s.sigRx ∧
    t.sigDemod = s.sigDemod ∧ t.rtext = s.rtext ∧ t.status = s.status ∧ t.event = s.event ∧
    t.hostActs = s.hostActs ∧ t.params = s.params) ∧
  ∀ s t : State, step s = .next t → t.params = s.params

/-- Every step answers a next state. In the step in which the host reads STATUS, the host receives the published status,
or, while no status was published (before the first completion event, and after runs that ended in a fault), the fault
of the read; the action is off the script, the event's edge is over, and nothing else changes. That the fault of the
read is a value of the result register is the model's (log 18). (From 10_state.md R26, 60_exceptions.md R280,
70_reset_and_hazards.md R300.) -/
def Obligations.NoStepStopsAndStatusReadsAnswer : Prop :=
  (∀ s : State, ∃ t, step s = .next t) ∧
  ∀ (s : State) (acts : List HostAct), s.hostActs = .readStatus :: acts →
    (s.status = none → step s = .next { s with hostActs := acts, event := none, result := .noStatus }) ∧
    ∀ st, s.status = some st → step s = .next { s with hostActs := acts, event := none, result := .status st }

/-- A host step that presents bits, samples, a text, a configuration word, a sigma or an index writes IN of that kind and
nothing else but the script and the event's edge; a chain step writes IN of the kind OUT has with what OUT holds, and
nothing for an empty OUT. IN as one buffer for each kind is the model's (log 10), and so are the script, the chain
action, its choice of the kind and its doing nothing for an empty OUT (log 14, DESIGN CHOICE). (From 10_state.md R22,
30_encoding.md R60.) -/
def Obligations.HostWritesItsOperand : Prop :=
  ∀ (s r : State) (acts : List HostAct), r = { s with hostActs := acts, event := none } →
    (∀ b, s.hostActs = .present (.bits b) :: acts → step s = .next { r with inBits := b }) ∧
    (∀ x, s.hostActs = .present (.samples x) :: acts → step s = .next { r with inSig := x }) ∧
    (∀ t, s.hostActs = .present (.text t) :: acts → step s = .next { r with inText := t }) ∧
    (∀ w, s.hostActs = .present (.cfgw w) :: acts → step s = .next { r with inCfgw := w }) ∧
    (∀ q, s.hostActs = .present (.sigma q) :: acts → step s = .next { r with inSigma := q }) ∧
    (∀ n, s.hostActs = .present (.index n) :: acts → step s = .next { r with inIndex := n }) ∧
    (s.hostActs = .chain :: acts →
      (∀ b, s.out = .bits b → step s = .next { r with inBits := b }) ∧
      (∀ x, s.out = .samples x → step s = .next { r with inSig := x }) ∧
      (∀ t, s.out = .text t → step s = .next { r with inText := t }) ∧
      (s.out = .empty → step s = .next r))

/-- In the reset state PSTATE is Idle, CFG_VALID is 0, the SIG buffers, RTEXT, IN and OUT are empty, there is no status
yet, WARN and BUSY are 0, no transmission is in flight and no completion event is pending. With no command, a step
leaves the reset state as it is (the empty script is log 14); a read of STATUS is faulted and changes nothing else
(log 18). (From 70_reset_and_hazards.md R300.) -/
def Obligations.ResetValuesOfTheSpec : Prop :=
  State.reset.pstate = .idle ∧ State.reset.cfgValid = false ∧
  State.reset.sigBase = [] ∧ State.reset.sigMod = [] ∧ State.reset.sigRx = [] ∧ State.reset.sigDemod = [] ∧
  State.reset.rtext = [] ∧ State.reset.status = none ∧
  State.reset.inBits = [] ∧ State.reset.inSig = [] ∧ State.reset.inText = [] ∧ State.reset.out = .empty ∧
  State.reset.warn = false ∧ State.reset.busy = false ∧ State.reset.flight = none ∧ State.reset.event = none ∧
  step State.reset = .next State.reset ∧
  step { State.reset with hostActs := [.readStatus] } = .next { State.reset with result := .noStatus }

/-- The invariant Inv (PSTATE agrees with the sequencer, a valid CFG is one PL.CONFIGURE lets in, SNAP is CFG in a run,
private stage outputs fit SNAP, RTEXT over 0 to 255, the channel keeps the length, the event carries what was
published) holds of the reset state. (From 70_reset_and_hazards.md R300.) -/
def Obligations.InvariantHoldsAtReset : Prop :=
  Inv State.reset

/-- If Inv holds of a state and a step of it answers a next state, Inv holds of the next state: PSTATE is the sequencer's
position and never Configuring between steps, CFG in force is legal on the build, SNAP and CFG agree while a run is in
flight, a carrier that is off leaves copies, the channel keeps the length, a status fits SNAP.EC, RTEXT holds bytes,
and an event comes with the run over and with the published values. (From 45_pipeline.md R245, 45_pipeline.md R250,
45_pipeline.md R251, 10_state.md R28.) -/
def Obligations.EveryStepKeepsTheInvariant : Prop :=
  ∀ s t : State, Inv s → step s = .next t → Inv t

/-- On a build with V > 0, S ≥ 1 (even for Manchester) and FLAG different from ESC: from Idle with a valid configuration
whose carrier stage is off and whose σ is 0, PL.TRANSMIT of a text over 0 to 255 (under character count one whose
framed payload has at most 2032 bits) is accepted, and after twelve steps of the sequencer the run is over, RTEXT is
the sent text, STATUS is the passing status of the error-control scheme, and the event carries both. For every line
code, framing and error-control scheme. Twelve steps, one stage each, under an empty script, are the model's (logs 14,
15). (From 45_pipeline.md R258, 70_reset_and_hazards.md R316.) -/
def Obligations.NoiselessPipelineReturnsTheText : Prop :=
  ∀ s : State, 0 < s.params.lineAmp.toReal → 1 ≤ s.params.samples → lineReady s.params s.cfg.line →
    s.params.flag ≠ s.params.esc → s.pstate = .idle → s.cfgValid = true → s.cfg.sigma.toReal = 0 →
    (s.cfg.carrierEn = false ∨ s.cfg.carrier = none) → charsOk s.inText →
    (s.cfg.framing = .characterCount → (ecEncode s.cfg.ec (s.inText.flatMap (beBits 8))).length ≤ 2032) →
    ∃ t u, exec .plTransmit s = .next t ∧ t.result = .done ∧
      steps 12 { t with hostActs := [] } = some u ∧ u.flight = none ∧ u.pstate = .idle ∧
      u.rtext = s.inText ∧ u.status = some (passing s.cfg.ec) ∧
      u.event = some (.done s.inText (passing s.cfg.ec))
end

