-- ==== Sys2Proof/Laws/State.lean ====
section
/-! SUPPORT. What each update of State does to each field: one lemma a field, true by rfl. No later proof unfolds an
update. -/

namespace Sys2Proof.Machine

variable (s : State)

@[simp] theorem State.raise_inBits (t : Trap) : (s.raise t).inBits = s.inBits := rfl
@[simp] theorem State.raise_inSig (t : Trap) : (s.raise t).inSig = s.inSig := rfl
@[simp] theorem State.raise_inText (t : Trap) : (s.raise t).inText = s.inText := rfl
@[simp] theorem State.raise_inCfgw (t : Trap) : (s.raise t).inCfgw = s.inCfgw := rfl
@[simp] theorem State.raise_inSigma (t : Trap) : (s.raise t).inSigma = s.inSigma := rfl
@[simp] theorem State.raise_inIndex (t : Trap) : (s.raise t).inIndex = s.inIndex := rfl
@[simp] theorem State.raise_out (t : Trap) : (s.raise t).out = s.out := rfl
@[simp] theorem State.raise_result (t : Trap) : (s.raise t).result = .fault t := rfl
@[simp] theorem State.raise_pstate (t : Trap) : (s.raise t).pstate = s.pstate := rfl
@[simp] theorem State.raise_cfg (t : Trap) : (s.raise t).cfg = s.cfg := rfl
@[simp] theorem State.raise_cfgValid (t : Trap) : (s.raise t).cfgValid = s.cfgValid := rfl
@[simp] theorem State.raise_snap (t : Trap) : (s.raise t).snap = s.snap := rfl
@[simp] theorem State.raise_status (t : Trap) : (s.raise t).status = s.status := rfl
@[simp] theorem State.raise_ok (t : Trap) : (s.raise t).ok = s.ok := rfl
@[simp] theorem State.raise_corrected (t : Trap) : (s.raise t).corrected = s.corrected := rfl
@[simp] theorem State.raise_warn (t : Trap) : (s.raise t).warn = s.warn := rfl
@[simp] theorem State.raise_sigBase (t : Trap) : (s.raise t).sigBase = s.sigBase := rfl
@[simp] theorem State.raise_sigMod (t : Trap) : (s.raise t).sigMod = s.sigMod := rfl
@[simp] theorem State.raise_sigRx (t : Trap) : (s.raise t).sigRx = s.sigRx := rfl
@[simp] theorem State.raise_sigDemod (t : Trap) : (s.raise t).sigDemod = s.sigDemod := rfl
@[simp] theorem State.raise_rtext (t : Trap) : (s.raise t).rtext = s.rtext := rfl
@[simp] theorem State.raise_flight (t : Trap) : (s.raise t).flight = s.flight := rfl
@[simp] theorem State.raise_event (t : Trap) : (s.raise t).event = s.event := rfl
@[simp] theorem State.raise_params (t : Trap) : (s.raise t).params = s.params := rfl
@[simp] theorem State.raise_noise (t : Trap) : (s.raise t).noise = s.noise := rfl
@[simp] theorem State.raise_noiseIx (t : Trap) : (s.raise t).noiseIx = s.noiseIx := rfl
@[simp] theorem State.raise_hostActs (t : Trap) : (s.raise t).hostActs = s.hostActs := rfl

@[simp] theorem State.done_inBits : s.done.inBits = s.inBits := rfl
@[simp] theorem State.done_inSig : s.done.inSig = s.inSig := rfl
@[simp] theorem State.done_inText : s.done.inText = s.inText := rfl
@[simp] theorem State.done_inCfgw : s.done.inCfgw = s.inCfgw := rfl
@[simp] theorem State.done_inSigma : s.done.inSigma = s.inSigma := rfl
@[simp] theorem State.done_inIndex : s.done.inIndex = s.inIndex := rfl
@[simp] theorem State.done_out : s.done.out = s.out := rfl
@[simp] theorem State.done_result : s.done.result = .done := rfl
@[simp] theorem State.done_pstate : s.done.pstate = s.pstate := rfl
@[simp] theorem State.done_cfg : s.done.cfg = s.cfg := rfl
@[simp] theorem State.done_cfgValid : s.done.cfgValid = s.cfgValid := rfl
@[simp] theorem State.done_snap : s.done.snap = s.snap := rfl
@[simp] theorem State.done_status : s.done.status = s.status := rfl
@[simp] theorem State.done_ok : s.done.ok = s.ok := rfl
@[simp] theorem State.done_corrected : s.done.corrected = s.corrected := rfl
@[simp] theorem State.done_warn : s.done.warn = s.warn := rfl
@[simp] theorem State.done_sigBase : s.done.sigBase = s.sigBase := rfl
@[simp] theorem State.done_sigMod : s.done.sigMod = s.sigMod := rfl
@[simp] theorem State.done_sigRx : s.done.sigRx = s.sigRx := rfl
@[simp] theorem State.done_sigDemod : s.done.sigDemod = s.sigDemod := rfl
@[simp] theorem State.done_rtext : s.done.rtext = s.rtext := rfl
@[simp] theorem State.done_flight : s.done.flight = s.flight := rfl
@[simp] theorem State.done_event : s.done.event = s.event := rfl
@[simp] theorem State.done_params : s.done.params = s.params := rfl
@[simp] theorem State.done_noise : s.done.noise = s.noise := rfl
@[simp] theorem State.done_noiseIx : s.done.noiseIx = s.noiseIx := rfl
@[simp] theorem State.done_hostActs : s.done.hostActs = s.hostActs := rfl

@[simp] theorem State.emit_inBits (b : Buf) : (s.emit b).inBits = s.inBits := rfl
@[simp] theorem State.emit_inSig (b : Buf) : (s.emit b).inSig = s.inSig := rfl
@[simp] theorem State.emit_inText (b : Buf) : (s.emit b).inText = s.inText := rfl
@[simp] theorem State.emit_inCfgw (b : Buf) : (s.emit b).inCfgw = s.inCfgw := rfl
@[simp] theorem State.emit_inSigma (b : Buf) : (s.emit b).inSigma = s.inSigma := rfl
@[simp] theorem State.emit_inIndex (b : Buf) : (s.emit b).inIndex = s.inIndex := rfl
@[simp] theorem State.emit_out (b : Buf) : (s.emit b).out = b := rfl
@[simp] theorem State.emit_result (b : Buf) : (s.emit b).result = .done := rfl
@[simp] theorem State.emit_pstate (b : Buf) : (s.emit b).pstate = s.pstate := rfl
@[simp] theorem State.emit_cfg (b : Buf) : (s.emit b).cfg = s.cfg := rfl
@[simp] theorem State.emit_cfgValid (b : Buf) : (s.emit b).cfgValid = s.cfgValid := rfl
@[simp] theorem State.emit_snap (b : Buf) : (s.emit b).snap = s.snap := rfl
@[simp] theorem State.emit_status (b : Buf) : (s.emit b).status = s.status := rfl
@[simp] theorem State.emit_ok (b : Buf) : (s.emit b).ok = s.ok := rfl
@[simp] theorem State.emit_corrected (b : Buf) : (s.emit b).corrected = s.corrected := rfl
@[simp] theorem State.emit_warn (b : Buf) : (s.emit b).warn = s.warn := rfl
@[simp] theorem State.emit_sigBase (b : Buf) : (s.emit b).sigBase = s.sigBase := rfl
@[simp] theorem State.emit_sigMod (b : Buf) : (s.emit b).sigMod = s.sigMod := rfl
@[simp] theorem State.emit_sigRx (b : Buf) : (s.emit b).sigRx = s.sigRx := rfl
@[simp] theorem State.emit_sigDemod (b : Buf) : (s.emit b).sigDemod = s.sigDemod := rfl
@[simp] theorem State.emit_rtext (b : Buf) : (s.emit b).rtext = s.rtext := rfl
@[simp] theorem State.emit_flight (b : Buf) : (s.emit b).flight = s.flight := rfl
@[simp] theorem State.emit_event (b : Buf) : (s.emit b).event = s.event := rfl
@[simp] theorem State.emit_params (b : Buf) : (s.emit b).params = s.params := rfl
@[simp] theorem State.emit_noise (b : Buf) : (s.emit b).noise = s.noise := rfl
@[simp] theorem State.emit_noiseIx (b : Buf) : (s.emit b).noiseIx = s.noiseIx := rfl
@[simp] theorem State.emit_hostActs (b : Buf) : (s.emit b).hostActs = s.hostActs := rfl

@[simp] theorem State.warnIf_inBits (w : Bool) : (s.warnIf w).inBits = s.inBits := rfl
@[simp] theorem State.warnIf_inSig (w : Bool) : (s.warnIf w).inSig = s.inSig := rfl
@[simp] theorem State.warnIf_inText (w : Bool) : (s.warnIf w).inText = s.inText := rfl
@[simp] theorem State.warnIf_inCfgw (w : Bool) : (s.warnIf w).inCfgw = s.inCfgw := rfl
@[simp] theorem State.warnIf_inSigma (w : Bool) : (s.warnIf w).inSigma = s.inSigma := rfl
@[simp] theorem State.warnIf_inIndex (w : Bool) : (s.warnIf w).inIndex = s.inIndex := rfl
@[simp] theorem State.warnIf_out (w : Bool) : (s.warnIf w).out = s.out := rfl
@[simp] theorem State.warnIf_result (w : Bool) : (s.warnIf w).result = s.result := rfl
@[simp] theorem State.warnIf_pstate (w : Bool) : (s.warnIf w).pstate = s.pstate := rfl
@[simp] theorem State.warnIf_cfg (w : Bool) : (s.warnIf w).cfg = s.cfg := rfl
@[simp] theorem State.warnIf_cfgValid (w : Bool) : (s.warnIf w).cfgValid = s.cfgValid := rfl
@[simp] theorem State.warnIf_snap (w : Bool) : (s.warnIf w).snap = s.snap := rfl
@[simp] theorem State.warnIf_status (w : Bool) : (s.warnIf w).status = s.status := rfl
@[simp] theorem State.warnIf_ok (w : Bool) : (s.warnIf w).ok = s.ok := rfl
@[simp] theorem State.warnIf_corrected (w : Bool) : (s.warnIf w).corrected = s.corrected := rfl
@[simp] theorem State.warnIf_warn (w : Bool) : (s.warnIf w).warn = (s.warn || w) := rfl
@[simp] theorem State.warnIf_sigBase (w : Bool) : (s.warnIf w).sigBase = s.sigBase := rfl
@[simp] theorem State.warnIf_sigMod (w : Bool) : (s.warnIf w).sigMod = s.sigMod := rfl
@[simp] theorem State.warnIf_sigRx (w : Bool) : (s.warnIf w).sigRx = s.sigRx := rfl
@[simp] theorem State.warnIf_sigDemod (w : Bool) : (s.warnIf w).sigDemod = s.sigDemod := rfl
@[simp] theorem State.warnIf_rtext (w : Bool) : (s.warnIf w).rtext = s.rtext := rfl
@[simp] theorem State.warnIf_flight (w : Bool) : (s.warnIf w).flight = s.flight := rfl
@[simp] theorem State.warnIf_event (w : Bool) : (s.warnIf w).event = s.event := rfl
@[simp] theorem State.warnIf_params (w : Bool) : (s.warnIf w).params = s.params := rfl
@[simp] theorem State.warnIf_noise (w : Bool) : (s.warnIf w).noise = s.noise := rfl
@[simp] theorem State.warnIf_noiseIx (w : Bool) : (s.warnIf w).noiseIx = s.noiseIx := rfl
@[simp] theorem State.warnIf_hostActs (w : Bool) : (s.warnIf w).hostActs = s.hostActs := rfl

@[simp] theorem State.setOk_inBits (v : Bool) : (s.setOk v).inBits = s.inBits := rfl
@[simp] theorem State.setOk_inSig (v : Bool) : (s.setOk v).inSig = s.inSig := rfl
@[simp] theorem State.setOk_inText (v : Bool) : (s.setOk v).inText = s.inText := rfl
@[simp] theorem State.setOk_inCfgw (v : Bool) : (s.setOk v).inCfgw = s.inCfgw := rfl
@[simp] theorem State.setOk_inSigma (v : Bool) : (s.setOk v).inSigma = s.inSigma := rfl
@[simp] theorem State.setOk_inIndex (v : Bool) : (s.setOk v).inIndex = s.inIndex := rfl
@[simp] theorem State.setOk_out (v : Bool) : (s.setOk v).out = s.out := rfl
@[simp] theorem State.setOk_result (v : Bool) : (s.setOk v).result = s.result := rfl
@[simp] theorem State.setOk_pstate (v : Bool) : (s.setOk v).pstate = s.pstate := rfl
@[simp] theorem State.setOk_cfg (v : Bool) : (s.setOk v).cfg = s.cfg := rfl
@[simp] theorem State.setOk_cfgValid (v : Bool) : (s.setOk v).cfgValid = s.cfgValid := rfl
@[simp] theorem State.setOk_snap (v : Bool) : (s.setOk v).snap = s.snap := rfl
@[simp] theorem State.setOk_status (v : Bool) : (s.setOk v).status = s.status := rfl
@[simp] theorem State.setOk_ok (v : Bool) : (s.setOk v).ok = v := rfl
@[simp] theorem State.setOk_corrected (v : Bool) : (s.setOk v).corrected = s.corrected := rfl
@[simp] theorem State.setOk_warn (v : Bool) : (s.setOk v).warn = s.warn := rfl
@[simp] theorem State.setOk_sigBase (v : Bool) : (s.setOk v).sigBase = s.sigBase := rfl
@[simp] theorem State.setOk_sigMod (v : Bool) : (s.setOk v).sigMod = s.sigMod := rfl
@[simp] theorem State.setOk_sigRx (v : Bool) : (s.setOk v).sigRx = s.sigRx := rfl
@[simp] theorem State.setOk_sigDemod (v : Bool) : (s.setOk v).sigDemod = s.sigDemod := rfl
@[simp] theorem State.setOk_rtext (v : Bool) : (s.setOk v).rtext = s.rtext := rfl
@[simp] theorem State.setOk_flight (v : Bool) : (s.setOk v).flight = s.flight := rfl
@[simp] theorem State.setOk_event (v : Bool) : (s.setOk v).event = s.event := rfl
@[simp] theorem State.setOk_params (v : Bool) : (s.setOk v).params = s.params := rfl
@[simp] theorem State.setOk_noise (v : Bool) : (s.setOk v).noise = s.noise := rfl
@[simp] theorem State.setOk_noiseIx (v : Bool) : (s.setOk v).noiseIx = s.noiseIx := rfl
@[simp] theorem State.setOk_hostActs (v : Bool) : (s.setOk v).hostActs = s.hostActs := rfl

@[simp] theorem State.setCorrected_inBits (v : Bool) : (s.setCorrected v).inBits = s.inBits := rfl
@[simp] theorem State.setCorrected_inSig (v : Bool) : (s.setCorrected v).inSig = s.inSig := rfl
@[simp] theorem State.setCorrected_inText (v : Bool) : (s.setCorrected v).inText = s.inText := rfl
@[simp] theorem State.setCorrected_inCfgw (v : Bool) : (s.setCorrected v).inCfgw = s.inCfgw := rfl
@[simp] theorem State.setCorrected_inSigma (v : Bool) : (s.setCorrected v).inSigma = s.inSigma := rfl
@[simp] theorem State.setCorrected_inIndex (v : Bool) : (s.setCorrected v).inIndex = s.inIndex := rfl
@[simp] theorem State.setCorrected_out (v : Bool) : (s.setCorrected v).out = s.out := rfl
@[simp] theorem State.setCorrected_result (v : Bool) : (s.setCorrected v).result = s.result := rfl
@[simp] theorem State.setCorrected_pstate (v : Bool) : (s.setCorrected v).pstate = s.pstate := rfl
@[simp] theorem State.setCorrected_cfg (v : Bool) : (s.setCorrected v).cfg = s.cfg := rfl
@[simp] theorem State.setCorrected_cfgValid (v : Bool) : (s.setCorrected v).cfgValid = s.cfgValid := rfl
@[simp] theorem State.setCorrected_snap (v : Bool) : (s.setCorrected v).snap = s.snap := rfl
@[simp] theorem State.setCorrected_status (v : Bool) : (s.setCorrected v).status = s.status := rfl
@[simp] theorem State.setCorrected_ok (v : Bool) : (s.setCorrected v).ok = s.ok := rfl
@[simp] theorem State.setCorrected_corrected (v : Bool) : (s.setCorrected v).corrected = v := rfl
@[simp] theorem State.setCorrected_warn (v : Bool) : (s.setCorrected v).warn = s.warn := rfl
@[simp] theorem State.setCorrected_sigBase (v : Bool) : (s.setCorrected v).sigBase = s.sigBase := rfl
@[simp] theorem State.setCorrected_sigMod (v : Bool) : (s.setCorrected v).sigMod = s.sigMod := rfl
@[simp] theorem State.setCorrected_sigRx (v : Bool) : (s.setCorrected v).sigRx = s.sigRx := rfl
@[simp] theorem State.setCorrected_sigDemod (v : Bool) : (s.setCorrected v).sigDemod = s.sigDemod := rfl
@[simp] theorem State.setCorrected_rtext (v : Bool) : (s.setCorrected v).rtext = s.rtext := rfl
@[simp] theorem State.setCorrected_flight (v : Bool) : (s.setCorrected v).flight = s.flight := rfl
@[simp] theorem State.setCorrected_event (v : Bool) : (s.setCorrected v).event = s.event := rfl
@[simp] theorem State.setCorrected_params (v : Bool) : (s.setCorrected v).params = s.params := rfl
@[simp] theorem State.setCorrected_noise (v : Bool) : (s.setCorrected v).noise = s.noise := rfl
@[simp] theorem State.setCorrected_noiseIx (v : Bool) : (s.setCorrected v).noiseIx = s.noiseIx := rfl
@[simp] theorem State.setCorrected_hostActs (v : Bool) : (s.setCorrected v).hostActs = s.hostActs := rfl

@[simp] theorem State.afterDraws_inBits (n : Nat) : (s.afterDraws n).inBits = s.inBits := rfl
@[simp] theorem State.afterDraws_inSig (n : Nat) : (s.afterDraws n).inSig = s.inSig := rfl
@[simp] theorem State.afterDraws_inText (n : Nat) : (s.afterDraws n).inText = s.inText := rfl
@[simp] theorem State.afterDraws_inCfgw (n : Nat) : (s.afterDraws n).inCfgw = s.inCfgw := rfl
@[simp] theorem State.afterDraws_inSigma (n : Nat) : (s.afterDraws n).inSigma = s.inSigma := rfl
@[simp] theorem State.afterDraws_inIndex (n : Nat) : (s.afterDraws n).inIndex = s.inIndex := rfl
@[simp] theorem State.afterDraws_out (n : Nat) : (s.afterDraws n).out = s.out := rfl
@[simp] theorem State.afterDraws_result (n : Nat) : (s.afterDraws n).result = s.result := rfl
@[simp] theorem State.afterDraws_pstate (n : Nat) : (s.afterDraws n).pstate = s.pstate := rfl
@[simp] theorem State.afterDraws_cfg (n : Nat) : (s.afterDraws n).cfg = s.cfg := rfl
@[simp] theorem State.afterDraws_cfgValid (n : Nat) : (s.afterDraws n).cfgValid = s.cfgValid := rfl
@[simp] theorem State.afterDraws_snap (n : Nat) : (s.afterDraws n).snap = s.snap := rfl
@[simp] theorem State.afterDraws_status (n : Nat) : (s.afterDraws n).status = s.status := rfl
@[simp] theorem State.afterDraws_ok (n : Nat) : (s.afterDraws n).ok = s.ok := rfl
@[simp] theorem State.afterDraws_corrected (n : Nat) : (s.afterDraws n).corrected = s.corrected := rfl
@[simp] theorem State.afterDraws_warn (n : Nat) : (s.afterDraws n).warn = s.warn := rfl
@[simp] theorem State.afterDraws_sigBase (n : Nat) : (s.afterDraws n).sigBase = s.sigBase := rfl
@[simp] theorem State.afterDraws_sigMod (n : Nat) : (s.afterDraws n).sigMod = s.sigMod := rfl
@[simp] theorem State.afterDraws_sigRx (n : Nat) : (s.afterDraws n).sigRx = s.sigRx := rfl
@[simp] theorem State.afterDraws_sigDemod (n : Nat) : (s.afterDraws n).sigDemod = s.sigDemod := rfl
@[simp] theorem State.afterDraws_rtext (n : Nat) : (s.afterDraws n).rtext = s.rtext := rfl
@[simp] theorem State.afterDraws_flight (n : Nat) : (s.afterDraws n).flight = s.flight := rfl
@[simp] theorem State.afterDraws_event (n : Nat) : (s.afterDraws n).event = s.event := rfl
@[simp] theorem State.afterDraws_params (n : Nat) : (s.afterDraws n).params = s.params := rfl
@[simp] theorem State.afterDraws_noise (n : Nat) : (s.afterDraws n).noise = s.noise.drop n := rfl
@[simp] theorem State.afterDraws_noiseIx (n : Nat) : (s.afterDraws n).noiseIx = s.noiseIx + (n - s.noise.length) := rfl
@[simp] theorem State.afterDraws_hostActs (n : Nat) : (s.afterDraws n).hostActs = s.hostActs := rfl

@[simp] theorem State.setPState_inBits (p : PState) : (s.setPState p).inBits = s.inBits := rfl
@[simp] theorem State.setPState_inSig (p : PState) : (s.setPState p).inSig = s.inSig := rfl
@[simp] theorem State.setPState_inText (p : PState) : (s.setPState p).inText = s.inText := rfl
@[simp] theorem State.setPState_inCfgw (p : PState) : (s.setPState p).inCfgw = s.inCfgw := rfl
@[simp] theorem State.setPState_inSigma (p : PState) : (s.setPState p).inSigma = s.inSigma := rfl
@[simp] theorem State.setPState_inIndex (p : PState) : (s.setPState p).inIndex = s.inIndex := rfl
@[simp] theorem State.setPState_out (p : PState) : (s.setPState p).out = s.out := rfl
@[simp] theorem State.setPState_result (p : PState) : (s.setPState p).result = s.result := rfl
@[simp] theorem State.setPState_pstate (p : PState) : (s.setPState p).pstate = p := rfl
@[simp] theorem State.setPState_cfg (p : PState) : (s.setPState p).cfg = s.cfg := rfl
@[simp] theorem State.setPState_cfgValid (p : PState) : (s.setPState p).cfgValid = s.cfgValid := rfl
@[simp] theorem State.setPState_snap (p : PState) : (s.setPState p).snap = s.snap := rfl
@[simp] theorem State.setPState_status (p : PState) : (s.setPState p).status = s.status := rfl
@[simp] theorem State.setPState_ok (p : PState) : (s.setPState p).ok = s.ok := rfl
@[simp] theorem State.setPState_corrected (p : PState) : (s.setPState p).corrected = s.corrected := rfl
@[simp] theorem State.setPState_warn (p : PState) : (s.setPState p).warn = s.warn := rfl
@[simp] theorem State.setPState_sigBase (p : PState) : (s.setPState p).sigBase = s.sigBase := rfl
@[simp] theorem State.setPState_sigMod (p : PState) : (s.setPState p).sigMod = s.sigMod := rfl
@[simp] theorem State.setPState_sigRx (p : PState) : (s.setPState p).sigRx = s.sigRx := rfl
@[simp] theorem State.setPState_sigDemod (p : PState) : (s.setPState p).sigDemod = s.sigDemod := rfl
@[simp] theorem State.setPState_rtext (p : PState) : (s.setPState p).rtext = s.rtext := rfl
@[simp] theorem State.setPState_flight (p : PState) : (s.setPState p).flight = s.flight := rfl
@[simp] theorem State.setPState_event (p : PState) : (s.setPState p).event = s.event := rfl
@[simp] theorem State.setPState_params (p : PState) : (s.setPState p).params = s.params := rfl
@[simp] theorem State.setPState_noise (p : PState) : (s.setPState p).noise = s.noise := rfl
@[simp] theorem State.setPState_noiseIx (p : PState) : (s.setPState p).noiseIx = s.noiseIx := rfl
@[simp] theorem State.setPState_hostActs (p : PState) : (s.setPState p).hostActs = s.hostActs := rfl

@[simp] theorem State.setCfg_inBits (c : PipeCfg) : (s.setCfg c).inBits = s.inBits := rfl
@[simp] theorem State.setCfg_inSig (c : PipeCfg) : (s.setCfg c).inSig = s.inSig := rfl
@[simp] theorem State.setCfg_inText (c : PipeCfg) : (s.setCfg c).inText = s.inText := rfl
@[simp] theorem State.setCfg_inCfgw (c : PipeCfg) : (s.setCfg c).inCfgw = s.inCfgw := rfl
@[simp] theorem State.setCfg_inSigma (c : PipeCfg) : (s.setCfg c).inSigma = s.inSigma := rfl
@[simp] theorem State.setCfg_inIndex (c : PipeCfg) : (s.setCfg c).inIndex = s.inIndex := rfl
@[simp] theorem State.setCfg_out (c : PipeCfg) : (s.setCfg c).out = s.out := rfl
@[simp] theorem State.setCfg_result (c : PipeCfg) : (s.setCfg c).result = s.result := rfl
@[simp] theorem State.setCfg_pstate (c : PipeCfg) : (s.setCfg c).pstate = s.pstate := rfl
@[simp] theorem State.setCfg_cfg (c : PipeCfg) : (s.setCfg c).cfg = c := rfl
@[simp] theorem State.setCfg_cfgValid (c : PipeCfg) : (s.setCfg c).cfgValid = true := rfl
@[simp] theorem State.setCfg_snap (c : PipeCfg) : (s.setCfg c).snap = s.snap := rfl
@[simp] theorem State.setCfg_status (c : PipeCfg) : (s.setCfg c).status = s.status := rfl
@[simp] theorem State.setCfg_ok (c : PipeCfg) : (s.setCfg c).ok = s.ok := rfl
@[simp] theorem State.setCfg_corrected (c : PipeCfg) : (s.setCfg c).corrected = s.corrected := rfl
@[simp] theorem State.setCfg_warn (c : PipeCfg) : (s.setCfg c).warn = s.warn := rfl
@[simp] theorem State.setCfg_sigBase (c : PipeCfg) : (s.setCfg c).sigBase = s.sigBase := rfl
@[simp] theorem State.setCfg_sigMod (c : PipeCfg) : (s.setCfg c).sigMod = s.sigMod := rfl
@[simp] theorem State.setCfg_sigRx (c : PipeCfg) : (s.setCfg c).sigRx = s.sigRx := rfl
@[simp] theorem State.setCfg_sigDemod (c : PipeCfg) : (s.setCfg c).sigDemod = s.sigDemod := rfl
@[simp] theorem State.setCfg_rtext (c : PipeCfg) : (s.setCfg c).rtext = s.rtext := rfl
@[simp] theorem State.setCfg_flight (c : PipeCfg) : (s.setCfg c).flight = s.flight := rfl
@[simp] theorem State.setCfg_event (c : PipeCfg) : (s.setCfg c).event = s.event := rfl
@[simp] theorem State.setCfg_params (c : PipeCfg) : (s.setCfg c).params = s.params := rfl
@[simp] theorem State.setCfg_noise (c : PipeCfg) : (s.setCfg c).noise = s.noise := rfl
@[simp] theorem State.setCfg_noiseIx (c : PipeCfg) : (s.setCfg c).noiseIx = s.noiseIx := rfl
@[simp] theorem State.setCfg_hostActs (c : PipeCfg) : (s.setCfg c).hostActs = s.hostActs := rfl

@[simp] theorem State.accept_inBits (t : Text) : (s.accept t).inBits = s.inBits := rfl
@[simp] theorem State.accept_inSig (t : Text) : (s.accept t).inSig = s.inSig := rfl
@[simp] theorem State.accept_inText (t : Text) : (s.accept t).inText = s.inText := rfl
@[simp] theorem State.accept_inCfgw (t : Text) : (s.accept t).inCfgw = s.inCfgw := rfl
@[simp] theorem State.accept_inSigma (t : Text) : (s.accept t).inSigma = s.inSigma := rfl
@[simp] theorem State.accept_inIndex (t : Text) : (s.accept t).inIndex = s.inIndex := rfl
@[simp] theorem State.accept_out (t : Text) : (s.accept t).out = s.out := rfl
@[simp] theorem State.accept_result (t : Text) : (s.accept t).result = .done := rfl
@[simp] theorem State.accept_pstate (t : Text) : (s.accept t).pstate = .transmitting := rfl
@[simp] theorem State.accept_cfg (t : Text) : (s.accept t).cfg = s.cfg := rfl
@[simp] theorem State.accept_cfgValid (t : Text) : (s.accept t).cfgValid = s.cfgValid := rfl
@[simp] theorem State.accept_snap (t : Text) : (s.accept t).snap = s.cfg := rfl
@[simp] theorem State.accept_status (t : Text) : (s.accept t).status = s.status := rfl
@[simp] theorem State.accept_ok (t : Text) : (s.accept t).ok = s.ok := rfl
@[simp] theorem State.accept_corrected (t : Text) : (s.accept t).corrected = s.corrected := rfl
@[simp] theorem State.accept_warn (t : Text) : (s.accept t).warn = false := rfl
@[simp] theorem State.accept_sigBase (t : Text) : (s.accept t).sigBase = s.sigBase := rfl
@[simp] theorem State.accept_sigMod (t : Text) : (s.accept t).sigMod = s.sigMod := rfl
@[simp] theorem State.accept_sigRx (t : Text) : (s.accept t).sigRx = s.sigRx := rfl
@[simp] theorem State.accept_sigDemod (t : Text) : (s.accept t).sigDemod = s.sigDemod := rfl
@[simp] theorem State.accept_rtext (t : Text) : (s.accept t).rtext = s.rtext := rfl
@[simp] theorem State.accept_flight (t : Text) : (s.accept t).flight = some (.t1 t) := rfl
@[simp] theorem State.accept_event (t : Text) : (s.accept t).event = s.event := rfl
@[simp] theorem State.accept_params (t : Text) : (s.accept t).params = s.params := rfl
@[simp] theorem State.accept_noise (t : Text) : (s.accept t).noise = s.noise := rfl
@[simp] theorem State.accept_noiseIx (t : Text) : (s.accept t).noiseIx = s.noiseIx := rfl
@[simp] theorem State.accept_hostActs (t : Text) : (s.accept t).hostActs = s.hostActs := rfl

@[simp] theorem State.goto_inBits (f : Flight) : (s.goto f).inBits = s.inBits := rfl
@[simp] theorem State.goto_inSig (f : Flight) : (s.goto f).inSig = s.inSig := rfl
@[simp] theorem State.goto_inText (f : Flight) : (s.goto f).inText = s.inText := rfl
@[simp] theorem State.goto_inCfgw (f : Flight) : (s.goto f).inCfgw = s.inCfgw := rfl
@[simp] theorem State.goto_inSigma (f : Flight) : (s.goto f).inSigma = s.inSigma := rfl
@[simp] theorem State.goto_inIndex (f : Flight) : (s.goto f).inIndex = s.inIndex := rfl
@[simp] theorem State.goto_out (f : Flight) : (s.goto f).out = s.out := rfl
@[simp] theorem State.goto_result (f : Flight) : (s.goto f).result = s.result := rfl
@[simp] theorem State.goto_pstate (f : Flight) : (s.goto f).pstate = s.pstate := rfl
@[simp] theorem State.goto_cfg (f : Flight) : (s.goto f).cfg = s.cfg := rfl
@[simp] theorem State.goto_cfgValid (f : Flight) : (s.goto f).cfgValid = s.cfgValid := rfl
@[simp] theorem State.goto_snap (f : Flight) : (s.goto f).snap = s.snap := rfl
@[simp] theorem State.goto_status (f : Flight) : (s.goto f).status = s.status := rfl
@[simp] theorem State.goto_ok (f : Flight) : (s.goto f).ok = s.ok := rfl
@[simp] theorem State.goto_corrected (f : Flight) : (s.goto f).corrected = s.corrected := rfl
@[simp] theorem State.goto_warn (f : Flight) : (s.goto f).warn = s.warn := rfl
@[simp] theorem State.goto_sigBase (f : Flight) : (s.goto f).sigBase = s.sigBase := rfl
@[simp] theorem State.goto_sigMod (f : Flight) : (s.goto f).sigMod = s.sigMod := rfl
@[simp] theorem State.goto_sigRx (f : Flight) : (s.goto f).sigRx = s.sigRx := rfl
@[simp] theorem State.goto_sigDemod (f : Flight) : (s.goto f).sigDemod = s.sigDemod := rfl
@[simp] theorem State.goto_rtext (f : Flight) : (s.goto f).rtext = s.rtext := rfl
@[simp] theorem State.goto_flight (f : Flight) : (s.goto f).flight = some f := rfl
@[simp] theorem State.goto_event (f : Flight) : (s.goto f).event = s.event := rfl
@[simp] theorem State.goto_params (f : Flight) : (s.goto f).params = s.params := rfl
@[simp] theorem State.goto_noise (f : Flight) : (s.goto f).noise = s.noise := rfl
@[simp] theorem State.goto_noiseIx (f : Flight) : (s.goto f).noiseIx = s.noiseIx := rfl
@[simp] theorem State.goto_hostActs (f : Flight) : (s.goto f).hostActs = s.hostActs := rfl

@[simp] theorem State.abort_inBits (t : Trap) : (s.abort t).inBits = s.inBits := rfl
@[simp] theorem State.abort_inSig (t : Trap) : (s.abort t).inSig = s.inSig := rfl
@[simp] theorem State.abort_inText (t : Trap) : (s.abort t).inText = s.inText := rfl
@[simp] theorem State.abort_inCfgw (t : Trap) : (s.abort t).inCfgw = s.inCfgw := rfl
@[simp] theorem State.abort_inSigma (t : Trap) : (s.abort t).inSigma = s.inSigma := rfl
@[simp] theorem State.abort_inIndex (t : Trap) : (s.abort t).inIndex = s.inIndex := rfl
@[simp] theorem State.abort_out (t : Trap) : (s.abort t).out = s.out := rfl
@[simp] theorem State.abort_result (t : Trap) : (s.abort t).result = s.result := rfl
@[simp] theorem State.abort_pstate (t : Trap) : (s.abort t).pstate = .idle := rfl
@[simp] theorem State.abort_cfg (t : Trap) : (s.abort t).cfg = s.cfg := rfl
@[simp] theorem State.abort_cfgValid (t : Trap) : (s.abort t).cfgValid = s.cfgValid := rfl
@[simp] theorem State.abort_snap (t : Trap) : (s.abort t).snap = s.snap := rfl
@[simp] theorem State.abort_status (t : Trap) : (s.abort t).status = s.status := rfl
@[simp] theorem State.abort_ok (t : Trap) : (s.abort t).ok = s.ok := rfl
@[simp] theorem State.abort_corrected (t : Trap) : (s.abort t).corrected = s.corrected := rfl
@[simp] theorem State.abort_warn (t : Trap) : (s.abort t).warn = s.warn := rfl
@[simp] theorem State.abort_sigBase (t : Trap) : (s.abort t).sigBase = s.sigBase := rfl
@[simp] theorem State.abort_sigMod (t : Trap) : (s.abort t).sigMod = s.sigMod := rfl
@[simp] theorem State.abort_sigRx (t : Trap) : (s.abort t).sigRx = s.sigRx := rfl
@[simp] theorem State.abort_sigDemod (t : Trap) : (s.abort t).sigDemod = s.sigDemod := rfl
@[simp] theorem State.abort_rtext (t : Trap) : (s.abort t).rtext = s.rtext := rfl
@[simp] theorem State.abort_flight (t : Trap) : (s.abort t).flight = none := rfl
@[simp] theorem State.abort_event (t : Trap) : (s.abort t).event = some (.failed t) := rfl
@[simp] theorem State.abort_params (t : Trap) : (s.abort t).params = s.params := rfl
@[simp] theorem State.abort_noise (t : Trap) : (s.abort t).noise = s.noise := rfl
@[simp] theorem State.abort_noiseIx (t : Trap) : (s.abort t).noiseIx = s.noiseIx := rfl
@[simp] theorem State.abort_hostActs (t : Trap) : (s.abort t).hostActs = s.hostActs := rfl

@[simp] theorem State.publish_inBits (s0 s1 s2 s3 : List Sample) (t : Text) (st : Status) : (s.publish s0 s1 s2 s3 t st).inBits = s.inBits := rfl
@[simp] theorem State.publish_inSig (s0 s1 s2 s3 : List Sample) (t : Text) (st : Status) : (s.publish s0 s1 s2 s3 t st).inSig = s.inSig := rfl
@[simp] theorem State.publish_inText (s0 s1 s2 s3 : List Sample) (t : Text) (st : Status) : (s.publish s0 s1 s2 s3 t st).inText = s.inText := rfl
@[simp] theorem State.publish_inCfgw (s0 s1 s2 s3 : List Sample) (t : Text) (st : Status) : (s.publish s0 s1 s2 s3 t st).inCfgw = s.inCfgw := rfl
@[simp] theorem State.publish_inSigma (s0 s1 s2 s3 : List Sample) (t : Text) (st : Status) : (s.publish s0 s1 s2 s3 t st).inSigma = s.inSigma := rfl
@[simp] theorem State.publish_inIndex (s0 s1 s2 s3 : List Sample) (t : Text) (st : Status) : (s.publish s0 s1 s2 s3 t st).inIndex = s.inIndex := rfl
@[simp] theorem State.publish_out (s0 s1 s2 s3 : List Sample) (t : Text) (st : Status) : (s.publish s0 s1 s2 s3 t st).out = s.out := rfl
@[simp] theorem State.publish_result (s0 s1 s2 s3 : List Sample) (t : Text) (st : Status) : (s.publish s0 s1 s2 s3 t st).result = s.result := rfl
@[simp] theorem State.publish_pstate (s0 s1 s2 s3 : List Sample) (t : Text) (st : Status) : (s.publish s0 s1 s2 s3 t st).pstate = s.pstate := rfl
@[simp] theorem State.publish_cfg (s0 s1 s2 s3 : List Sample) (t : Text) (st : Status) : (s.publish s0 s1 s2 s3 t st).cfg = s.cfg := rfl
@[simp] theorem State.publish_cfgValid (s0 s1 s2 s3 : List Sample) (t : Text) (st : Status) : (s.publish s0 s1 s2 s3 t st).cfgValid = s.cfgValid := rfl
@[simp] theorem State.publish_snap (s0 s1 s2 s3 : List Sample) (t : Text) (st : Status) : (s.publish s0 s1 s2 s3 t st).snap = s.snap := rfl
@[simp] theorem State.publish_status (s0 s1 s2 s3 : List Sample) (t : Text) (st : Status) : (s.publish s0 s1 s2 s3 t st).status = some st := rfl
@[simp] theorem State.publish_ok (s0 s1 s2 s3 : List Sample) (t : Text) (st : Status) : (s.publish s0 s1 s2 s3 t st).ok = s.ok := rfl
@[simp] theorem State.publish_corrected (s0 s1 s2 s3 : List Sample) (t : Text) (st : Status) : (s.publish s0 s1 s2 s3 t st).corrected = s.corrected := rfl
@[simp] theorem State.publish_warn (s0 s1 s2 s3 : List Sample) (t : Text) (st : Status) : (s.publish s0 s1 s2 s3 t st).warn = s.warn := rfl
@[simp] theorem State.publish_sigBase (s0 s1 s2 s3 : List Sample) (t : Text) (st : Status) : (s.publish s0 s1 s2 s3 t st).sigBase = s0 := rfl
@[simp] theorem State.publish_sigMod (s0 s1 s2 s3 : List Sample) (t : Text) (st : Status) : (s.publish s0 s1 s2 s3 t st).sigMod = s1 := rfl
@[simp] theorem State.publish_sigRx (s0 s1 s2 s3 : List Sample) (t : Text) (st : Status) : (s.publish s0 s1 s2 s3 t st).sigRx = s2 := rfl
@[simp] theorem State.publish_sigDemod (s0 s1 s2 s3 : List Sample) (t : Text) (st : Status) : (s.publish s0 s1 s2 s3 t st).sigDemod = s3 := rfl
@[simp] theorem State.publish_rtext (s0 s1 s2 s3 : List Sample) (t : Text) (st : Status) : (s.publish s0 s1 s2 s3 t st).rtext = t := rfl
@[simp] theorem State.publish_flight (s0 s1 s2 s3 : List Sample) (t : Text) (st : Status) : (s.publish s0 s1 s2 s3 t st).flight = s.flight := rfl
@[simp] theorem State.publish_event (s0 s1 s2 s3 : List Sample) (t : Text) (st : Status) : (s.publish s0 s1 s2 s3 t st).event = s.event := rfl
@[simp] theorem State.publish_params (s0 s1 s2 s3 : List Sample) (t : Text) (st : Status) : (s.publish s0 s1 s2 s3 t st).params = s.params := rfl
@[simp] theorem State.publish_noise (s0 s1 s2 s3 : List Sample) (t : Text) (st : Status) : (s.publish s0 s1 s2 s3 t st).noise = s.noise := rfl
@[simp] theorem State.publish_noiseIx (s0 s1 s2 s3 : List Sample) (t : Text) (st : Status) : (s.publish s0 s1 s2 s3 t st).noiseIx = s.noiseIx := rfl
@[simp] theorem State.publish_hostActs (s0 s1 s2 s3 : List Sample) (t : Text) (st : Status) : (s.publish s0 s1 s2 s3 t st).hostActs = s.hostActs := rfl

@[simp] theorem State.complete_inBits (t : Text) (st : Status) : (s.complete t st).inBits = s.inBits := rfl
@[simp] theorem State.complete_inSig (t : Text) (st : Status) : (s.complete t st).inSig = s.inSig := rfl
@[simp] theorem State.complete_inText (t : Text) (st : Status) : (s.complete t st).inText = s.inText := rfl
@[simp] theorem State.complete_inCfgw (t : Text) (st : Status) : (s.complete t st).inCfgw = s.inCfgw := rfl
@[simp] theorem State.complete_inSigma (t : Text) (st : Status) : (s.complete t st).inSigma = s.inSigma := rfl
@[simp] theorem State.complete_inIndex (t : Text) (st : Status) : (s.complete t st).inIndex = s.inIndex := rfl
@[simp] theorem State.complete_out (t : Text) (st : Status) : (s.complete t st).out = s.out := rfl
@[simp] theorem State.complete_result (t : Text) (st : Status) : (s.complete t st).result = s.result := rfl
@[simp] theorem State.complete_pstate (t : Text) (st : Status) : (s.complete t st).pstate = .idle := rfl
@[simp] theorem State.complete_cfg (t : Text) (st : Status) : (s.complete t st).cfg = s.cfg := rfl
@[simp] theorem State.complete_cfgValid (t : Text) (st : Status) : (s.complete t st).cfgValid = s.cfgValid := rfl
@[simp] theorem State.complete_snap (t : Text) (st : Status) : (s.complete t st).snap = s.snap := rfl
@[simp] theorem State.complete_status (t : Text) (st : Status) : (s.complete t st).status = s.status := rfl
@[simp] theorem State.complete_ok (t : Text) (st : Status) : (s.complete t st).ok = s.ok := rfl
@[simp] theorem State.complete_corrected (t : Text) (st : Status) : (s.complete t st).corrected = s.corrected := rfl
@[simp] theorem State.complete_warn (t : Text) (st : Status) : (s.complete t st).warn = s.warn := rfl
@[simp] theorem State.complete_sigBase (t : Text) (st : Status) : (s.complete t st).sigBase = s.sigBase := rfl
@[simp] theorem State.complete_sigMod (t : Text) (st : Status) : (s.complete t st).sigMod = s.sigMod := rfl
@[simp] theorem State.complete_sigRx (t : Text) (st : Status) : (s.complete t st).sigRx = s.sigRx := rfl
@[simp] theorem State.complete_sigDemod (t : Text) (st : Status) : (s.complete t st).sigDemod = s.sigDemod := rfl
@[simp] theorem State.complete_rtext (t : Text) (st : Status) : (s.complete t st).rtext = s.rtext := rfl
@[simp] theorem State.complete_flight (t : Text) (st : Status) : (s.complete t st).flight = none := rfl
@[simp] theorem State.complete_event (t : Text) (st : Status) : (s.complete t st).event = some (.done t st) := rfl
@[simp] theorem State.complete_params (t : Text) (st : Status) : (s.complete t st).params = s.params := rfl
@[simp] theorem State.complete_noise (t : Text) (st : Status) : (s.complete t st).noise = s.noise := rfl
@[simp] theorem State.complete_noiseIx (t : Text) (st : Status) : (s.complete t st).noiseIx = s.noiseIx := rfl
@[simp] theorem State.complete_hostActs (t : Text) (st : Status) : (s.complete t st).hostActs = s.hostActs := rfl

@[simp] theorem State.readStatus_inBits : s.readStatus.inBits = s.inBits := rfl
@[simp] theorem State.readStatus_inSig : s.readStatus.inSig = s.inSig := rfl
@[simp] theorem State.readStatus_inText : s.readStatus.inText = s.inText := rfl
@[simp] theorem State.readStatus_inCfgw : s.readStatus.inCfgw = s.inCfgw := rfl
@[simp] theorem State.readStatus_inSigma : s.readStatus.inSigma = s.inSigma := rfl
@[simp] theorem State.readStatus_inIndex : s.readStatus.inIndex = s.inIndex := rfl
@[simp] theorem State.readStatus_out : s.readStatus.out = s.out := rfl
@[simp] theorem State.readStatus_result : s.readStatus.result = (match s.status with | some st => .status st | none => .noStatus) := rfl
@[simp] theorem State.readStatus_pstate : s.readStatus.pstate = s.pstate := rfl
@[simp] theorem State.readStatus_cfg : s.readStatus.cfg = s.cfg := rfl
@[simp] theorem State.readStatus_cfgValid : s.readStatus.cfgValid = s.cfgValid := rfl
@[simp] theorem State.readStatus_snap : s.readStatus.snap = s.snap := rfl
@[simp] theorem State.readStatus_status : s.readStatus.status = s.status := rfl
@[simp] theorem State.readStatus_ok : s.readStatus.ok = s.ok := rfl
@[simp] theorem State.readStatus_corrected : s.readStatus.corrected = s.corrected := rfl
@[simp] theorem State.readStatus_warn : s.readStatus.warn = s.warn := rfl
@[simp] theorem State.readStatus_sigBase : s.readStatus.sigBase = s.sigBase := rfl
@[simp] theorem State.readStatus_sigMod : s.readStatus.sigMod = s.sigMod := rfl
@[simp] theorem State.readStatus_sigRx : s.readStatus.sigRx = s.sigRx := rfl
@[simp] theorem State.readStatus_sigDemod : s.readStatus.sigDemod = s.sigDemod := rfl
@[simp] theorem State.readStatus_rtext : s.readStatus.rtext = s.rtext := rfl
@[simp] theorem State.readStatus_flight : s.readStatus.flight = s.flight := rfl
@[simp] theorem State.readStatus_event : s.readStatus.event = s.event := rfl
@[simp] theorem State.readStatus_params : s.readStatus.params = s.params := rfl
@[simp] theorem State.readStatus_noise : s.readStatus.noise = s.noise := rfl
@[simp] theorem State.readStatus_noiseIx : s.readStatus.noiseIx = s.noiseIx := rfl
@[simp] theorem State.readStatus_hostActs : s.readStatus.hostActs = s.hostActs := rfl

@[simp] theorem State.consume_inBits : s.consume.inBits = s.inBits := rfl
@[simp] theorem State.consume_inSig : s.consume.inSig = s.inSig := rfl
@[simp] theorem State.consume_inText : s.consume.inText = s.inText := rfl
@[simp] theorem State.consume_inCfgw : s.consume.inCfgw = s.inCfgw := rfl
@[simp] theorem State.consume_inSigma : s.consume.inSigma = s.inSigma := rfl
@[simp] theorem State.consume_inIndex : s.consume.inIndex = s.inIndex := rfl
@[simp] theorem State.consume_out : s.consume.out = s.out := rfl
@[simp] theorem State.consume_result : s.consume.result = s.result := rfl
@[simp] theorem State.consume_pstate : s.consume.pstate = s.pstate := rfl
@[simp] theorem State.consume_cfg : s.consume.cfg = s.cfg := rfl
@[simp] theorem State.consume_cfgValid : s.consume.cfgValid = s.cfgValid := rfl
@[simp] theorem State.consume_snap : s.consume.snap = s.snap := rfl
@[simp] theorem State.consume_status : s.consume.status = s.status := rfl
@[simp] theorem State.consume_ok : s.consume.ok = s.ok := rfl
@[simp] theorem State.consume_corrected : s.consume.corrected = s.corrected := rfl
@[simp] theorem State.consume_warn : s.consume.warn = s.warn := rfl
@[simp] theorem State.consume_sigBase : s.consume.sigBase = s.sigBase := rfl
@[simp] theorem State.consume_sigMod : s.consume.sigMod = s.sigMod := rfl
@[simp] theorem State.consume_sigRx : s.consume.sigRx = s.sigRx := rfl
@[simp] theorem State.consume_sigDemod : s.consume.sigDemod = s.sigDemod := rfl
@[simp] theorem State.consume_rtext : s.consume.rtext = s.rtext := rfl
@[simp] theorem State.consume_flight : s.consume.flight = s.flight := rfl
@[simp] theorem State.consume_event : s.consume.event = none := rfl
@[simp] theorem State.consume_params : s.consume.params = s.params := rfl
@[simp] theorem State.consume_noise : s.consume.noise = s.noise := rfl
@[simp] theorem State.consume_noiseIx : s.consume.noiseIx = s.noiseIx := rfl
@[simp] theorem State.consume_hostActs : s.consume.hostActs = s.hostActs.tail := rfl

@[simp] theorem State.present_out (o : Operand) : (s.present o).out = s.out := by cases o <;> rfl
@[simp] theorem State.present_result (o : Operand) : (s.present o).result = s.result := by cases o <;> rfl
@[simp] theorem State.present_pstate (o : Operand) : (s.present o).pstate = s.pstate := by cases o <;> rfl
@[simp] theorem State.present_cfg (o : Operand) : (s.present o).cfg = s.cfg := by cases o <;> rfl
@[simp] theorem State.present_cfgValid (o : Operand) : (s.present o).cfgValid = s.cfgValid := by cases o <;> rfl
@[simp] theorem State.present_snap (o : Operand) : (s.present o).snap = s.snap := by cases o <;> rfl
@[simp] theorem State.present_status (o : Operand) : (s.present o).status = s.status := by cases o <;> rfl
@[simp] theorem State.present_ok (o : Operand) : (s.present o).ok = s.ok := by cases o <;> rfl
@[simp] theorem State.present_corrected (o : Operand) : (s.present o).corrected = s.corrected := by cases o <;> rfl
@[simp] theorem State.present_warn (o : Operand) : (s.present o).warn = s.warn := by cases o <;> rfl
@[simp] theorem State.present_sigBase (o : Operand) : (s.present o).sigBase = s.sigBase := by cases o <;> rfl
@[simp] theorem State.present_sigMod (o : Operand) : (s.present o).sigMod = s.sigMod := by cases o <;> rfl
@[simp] theorem State.present_sigRx (o : Operand) : (s.present o).sigRx = s.sigRx := by cases o <;> rfl
@[simp] theorem State.present_sigDemod (o : Operand) : (s.present o).sigDemod = s.sigDemod := by cases o <;> rfl
@[simp] theorem State.present_rtext (o : Operand) : (s.present o).rtext = s.rtext := by cases o <;> rfl
@[simp] theorem State.present_flight (o : Operand) : (s.present o).flight = s.flight := by cases o <;> rfl
@[simp] theorem State.present_event (o : Operand) : (s.present o).event = s.event := by cases o <;> rfl
@[simp] theorem State.present_params (o : Operand) : (s.present o).params = s.params := by cases o <;> rfl
@[simp] theorem State.present_noise (o : Operand) : (s.present o).noise = s.noise := by cases o <;> rfl
@[simp] theorem State.present_noiseIx (o : Operand) : (s.present o).noiseIx = s.noiseIx := by cases o <;> rfl
@[simp] theorem State.present_hostActs (o : Operand) : (s.present o).hostActs = s.hostActs := by cases o <;> rfl

@[simp] theorem State.finish_inBits (r : Staged Buf) : (s.finish r).inBits = s.inBits := by cases r <;> rfl
@[simp] theorem State.finish_inSig (r : Staged Buf) : (s.finish r).inSig = s.inSig := by cases r <;> rfl
@[simp] theorem State.finish_inText (r : Staged Buf) : (s.finish r).inText = s.inText := by cases r <;> rfl
@[simp] theorem State.finish_inCfgw (r : Staged Buf) : (s.finish r).inCfgw = s.inCfgw := by cases r <;> rfl
@[simp] theorem State.finish_inSigma (r : Staged Buf) : (s.finish r).inSigma = s.inSigma := by cases r <;> rfl
@[simp] theorem State.finish_inIndex (r : Staged Buf) : (s.finish r).inIndex = s.inIndex := by cases r <;> rfl
@[simp] theorem State.finish_pstate (r : Staged Buf) : (s.finish r).pstate = s.pstate := by cases r <;> rfl
@[simp] theorem State.finish_cfg (r : Staged Buf) : (s.finish r).cfg = s.cfg := by cases r <;> rfl
@[simp] theorem State.finish_cfgValid (r : Staged Buf) : (s.finish r).cfgValid = s.cfgValid := by cases r <;> rfl
@[simp] theorem State.finish_snap (r : Staged Buf) : (s.finish r).snap = s.snap := by cases r <;> rfl
@[simp] theorem State.finish_status (r : Staged Buf) : (s.finish r).status = s.status := by cases r <;> rfl
@[simp] theorem State.finish_ok (r : Staged Buf) : (s.finish r).ok = s.ok := by cases r <;> rfl
@[simp] theorem State.finish_corrected (r : Staged Buf) : (s.finish r).corrected = s.corrected := by cases r <;> rfl
@[simp] theorem State.finish_sigBase (r : Staged Buf) : (s.finish r).sigBase = s.sigBase := by cases r <;> rfl
@[simp] theorem State.finish_sigMod (r : Staged Buf) : (s.finish r).sigMod = s.sigMod := by cases r <;> rfl
@[simp] theorem State.finish_sigRx (r : Staged Buf) : (s.finish r).sigRx = s.sigRx := by cases r <;> rfl
@[simp] theorem State.finish_sigDemod (r : Staged Buf) : (s.finish r).sigDemod = s.sigDemod := by cases r <;> rfl
@[simp] theorem State.finish_rtext (r : Staged Buf) : (s.finish r).rtext = s.rtext := by cases r <;> rfl
@[simp] theorem State.finish_flight (r : Staged Buf) : (s.finish r).flight = s.flight := by cases r <;> rfl
@[simp] theorem State.finish_event (r : Staged Buf) : (s.finish r).event = s.event := by cases r <;> rfl
@[simp] theorem State.finish_params (r : Staged Buf) : (s.finish r).params = s.params := by cases r <;> rfl
@[simp] theorem State.finish_noise (r : Staged Buf) : (s.finish r).noise = s.noise := by cases r <;> rfl
@[simp] theorem State.finish_noiseIx (r : Staged Buf) : (s.finish r).noiseIx = s.noiseIx := by cases r <;> rfl
@[simp] theorem State.finish_hostActs (r : Staged Buf) : (s.finish r).hostActs = s.hostActs := by cases r <;> rfl

@[simp] theorem State.ifConfigured_inBits (r : Staged (List Sample)) : (s.ifConfigured r).inBits = s.inBits := by unfold State.ifConfigured; cases r <;> split <;> rfl
@[simp] theorem State.ifConfigured_inSig (r : Staged (List Sample)) : (s.ifConfigured r).inSig = s.inSig := by unfold State.ifConfigured; cases r <;> split <;> rfl
@[simp] theorem State.ifConfigured_inText (r : Staged (List Sample)) : (s.ifConfigured r).inText = s.inText := by unfold State.ifConfigured; cases r <;> split <;> rfl
@[simp] theorem State.ifConfigured_inCfgw (r : Staged (List Sample)) : (s.ifConfigured r).inCfgw = s.inCfgw := by unfold State.ifConfigured; cases r <;> split <;> rfl
@[simp] theorem State.ifConfigured_inSigma (r : Staged (List Sample)) : (s.ifConfigured r).inSigma = s.inSigma := by unfold State.ifConfigured; cases r <;> split <;> rfl
@[simp] theorem State.ifConfigured_inIndex (r : Staged (List Sample)) : (s.ifConfigured r).inIndex = s.inIndex := by unfold State.ifConfigured; cases r <;> split <;> rfl
@[simp] theorem State.ifConfigured_pstate (r : Staged (List Sample)) : (s.ifConfigured r).pstate = s.pstate := by unfold State.ifConfigured; cases r <;> split <;> rfl
@[simp] theorem State.ifConfigured_cfg (r : Staged (List Sample)) : (s.ifConfigured r).cfg = s.cfg := by unfold State.ifConfigured; cases r <;> split <;> rfl
@[simp] theorem State.ifConfigured_cfgValid (r : Staged (List Sample)) : (s.ifConfigured r).cfgValid = s.cfgValid := by unfold State.ifConfigured; cases r <;> split <;> rfl
@[simp] theorem State.ifConfigured_snap (r : Staged (List Sample)) : (s.ifConfigured r).snap = s.snap := by unfold State.ifConfigured; cases r <;> split <;> rfl
@[simp] theorem State.ifConfigured_status (r : Staged (List Sample)) : (s.ifConfigured r).status = s.status := by unfold State.ifConfigured; cases r <;> split <;> rfl
@[simp] theorem State.ifConfigured_ok (r : Staged (List Sample)) : (s.ifConfigured r).ok = s.ok := by unfold State.ifConfigured; cases r <;> split <;> rfl
@[simp] theorem State.ifConfigured_corrected (r : Staged (List Sample)) : (s.ifConfigured r).corrected = s.corrected := by unfold State.ifConfigured; cases r <;> split <;> rfl
@[simp] theorem State.ifConfigured_sigBase (r : Staged (List Sample)) : (s.ifConfigured r).sigBase = s.sigBase := by unfold State.ifConfigured; cases r <;> split <;> rfl
@[simp] theorem State.ifConfigured_sigMod (r : Staged (List Sample)) : (s.ifConfigured r).sigMod = s.sigMod := by unfold State.ifConfigured; cases r <;> split <;> rfl
@[simp] theorem State.ifConfigured_sigRx (r : Staged (List Sample)) : (s.ifConfigured r).sigRx = s.sigRx := by unfold State.ifConfigured; cases r <;> split <;> rfl
@[simp] theorem State.ifConfigured_sigDemod (r : Staged (List Sample)) : (s.ifConfigured r).sigDemod = s.sigDemod := by unfold State.ifConfigured; cases r <;> split <;> rfl
@[simp] theorem State.ifConfigured_rtext (r : Staged (List Sample)) : (s.ifConfigured r).rtext = s.rtext := by unfold State.ifConfigured; cases r <;> split <;> rfl
@[simp] theorem State.ifConfigured_flight (r : Staged (List Sample)) : (s.ifConfigured r).flight = s.flight := by unfold State.ifConfigured; cases r <;> split <;> rfl
@[simp] theorem State.ifConfigured_event (r : Staged (List Sample)) : (s.ifConfigured r).event = s.event := by unfold State.ifConfigured; cases r <;> split <;> rfl
@[simp] theorem State.ifConfigured_params (r : Staged (List Sample)) : (s.ifConfigured r).params = s.params := by unfold State.ifConfigured; cases r <;> split <;> rfl
@[simp] theorem State.ifConfigured_noise (r : Staged (List Sample)) : (s.ifConfigured r).noise = s.noise := by unfold State.ifConfigured; cases r <;> split <;> rfl
@[simp] theorem State.ifConfigured_noiseIx (r : Staged (List Sample)) : (s.ifConfigured r).noiseIx = s.noiseIx := by unfold State.ifConfigured; cases r <;> split <;> rfl
@[simp] theorem State.ifConfigured_hostActs (r : Staged (List Sample)) : (s.ifConfigured r).hostActs = s.hostActs := by unfold State.ifConfigured; cases r <;> split <;> rfl

@[simp] theorem State.channelDone_inBits (a : SigmaArg) (x : List Sample) : (s.channelDone a x).inBits = s.inBits := by unfold State.channelDone; split <;> rfl
@[simp] theorem State.channelDone_inSig (a : SigmaArg) (x : List Sample) : (s.channelDone a x).inSig = s.inSig := by unfold State.channelDone; split <;> rfl
@[simp] theorem State.channelDone_inText (a : SigmaArg) (x : List Sample) : (s.channelDone a x).inText = s.inText := by unfold State.channelDone; split <;> rfl
@[simp] theorem State.channelDone_inCfgw (a : SigmaArg) (x : List Sample) : (s.channelDone a x).inCfgw = s.inCfgw := by unfold State.channelDone; split <;> rfl
@[simp] theorem State.channelDone_inSigma (a : SigmaArg) (x : List Sample) : (s.channelDone a x).inSigma = s.inSigma := by unfold State.channelDone; split <;> rfl
@[simp] theorem State.channelDone_inIndex (a : SigmaArg) (x : List Sample) : (s.channelDone a x).inIndex = s.inIndex := by unfold State.channelDone; split <;> rfl
@[simp] theorem State.channelDone_out (a : SigmaArg) (x : List Sample) : (s.channelDone a x).out = s.out := by unfold State.channelDone; split <;> rfl
@[simp] theorem State.channelDone_result (a : SigmaArg) (x : List Sample) : (s.channelDone a x).result = s.result := by unfold State.channelDone; split <;> rfl
@[simp] theorem State.channelDone_pstate (a : SigmaArg) (x : List Sample) : (s.channelDone a x).pstate = s.pstate := by unfold State.channelDone; split <;> rfl
@[simp] theorem State.channelDone_cfg (a : SigmaArg) (x : List Sample) : (s.channelDone a x).cfg = s.cfg := by unfold State.channelDone; split <;> rfl
@[simp] theorem State.channelDone_cfgValid (a : SigmaArg) (x : List Sample) : (s.channelDone a x).cfgValid = s.cfgValid := by unfold State.channelDone; split <;> rfl
@[simp] theorem State.channelDone_snap (a : SigmaArg) (x : List Sample) : (s.channelDone a x).snap = s.snap := by unfold State.channelDone; split <;> rfl
@[simp] theorem State.channelDone_status (a : SigmaArg) (x : List Sample) : (s.channelDone a x).status = s.status := by unfold State.channelDone; split <;> rfl
@[simp] theorem State.channelDone_ok (a : SigmaArg) (x : List Sample) : (s.channelDone a x).ok = s.ok := by unfold State.channelDone; split <;> rfl
@[simp] theorem State.channelDone_corrected (a : SigmaArg) (x : List Sample) : (s.channelDone a x).corrected = s.corrected := by unfold State.channelDone; split <;> rfl
@[simp] theorem State.channelDone_warn (a : SigmaArg) (x : List Sample) : (s.channelDone a x).warn = s.warn := by unfold State.channelDone; split <;> rfl
@[simp] theorem State.channelDone_sigBase (a : SigmaArg) (x : List Sample) : (s.channelDone a x).sigBase = s.sigBase := by unfold State.channelDone; split <;> rfl
@[simp] theorem State.channelDone_sigMod (a : SigmaArg) (x : List Sample) : (s.channelDone a x).sigMod = s.sigMod := by unfold State.channelDone; split <;> rfl
@[simp] theorem State.channelDone_sigRx (a : SigmaArg) (x : List Sample) : (s.channelDone a x).sigRx = s.sigRx := by unfold State.channelDone; split <;> rfl
@[simp] theorem State.channelDone_sigDemod (a : SigmaArg) (x : List Sample) : (s.channelDone a x).sigDemod = s.sigDemod := by unfold State.channelDone; split <;> rfl
@[simp] theorem State.channelDone_rtext (a : SigmaArg) (x : List Sample) : (s.channelDone a x).rtext = s.rtext := by unfold State.channelDone; split <;> rfl
@[simp] theorem State.channelDone_flight (a : SigmaArg) (x : List Sample) : (s.channelDone a x).flight = s.flight := by unfold State.channelDone; split <;> rfl
@[simp] theorem State.channelDone_event (a : SigmaArg) (x : List Sample) : (s.channelDone a x).event = s.event := by unfold State.channelDone; split <;> rfl
@[simp] theorem State.channelDone_params (a : SigmaArg) (x : List Sample) : (s.channelDone a x).params = s.params := by unfold State.channelDone; split <;> rfl
@[simp] theorem State.channelDone_hostActs (a : SigmaArg) (x : List Sample) : (s.channelDone a x).hostActs = s.hostActs := by unfold State.channelDone; split <;> rfl

@[simp] theorem State.ecFlags_inBits (e : ErrorControl) (r : BitSeq) : (s.ecFlags e r).inBits = s.inBits := by cases e <;> rfl
@[simp] theorem State.ecFlags_inSig (e : ErrorControl) (r : BitSeq) : (s.ecFlags e r).inSig = s.inSig := by cases e <;> rfl
@[simp] theorem State.ecFlags_inText (e : ErrorControl) (r : BitSeq) : (s.ecFlags e r).inText = s.inText := by cases e <;> rfl
@[simp] theorem State.ecFlags_inCfgw (e : ErrorControl) (r : BitSeq) : (s.ecFlags e r).inCfgw = s.inCfgw := by cases e <;> rfl
@[simp] theorem State.ecFlags_inSigma (e : ErrorControl) (r : BitSeq) : (s.ecFlags e r).inSigma = s.inSigma := by cases e <;> rfl
@[simp] theorem State.ecFlags_inIndex (e : ErrorControl) (r : BitSeq) : (s.ecFlags e r).inIndex = s.inIndex := by cases e <;> rfl
@[simp] theorem State.ecFlags_out (e : ErrorControl) (r : BitSeq) : (s.ecFlags e r).out = s.out := by cases e <;> rfl
@[simp] theorem State.ecFlags_result (e : ErrorControl) (r : BitSeq) : (s.ecFlags e r).result = s.result := by cases e <;> rfl
@[simp] theorem State.ecFlags_pstate (e : ErrorControl) (r : BitSeq) : (s.ecFlags e r).pstate = s.pstate := by cases e <;> rfl
@[simp] theorem State.ecFlags_cfg (e : ErrorControl) (r : BitSeq) : (s.ecFlags e r).cfg = s.cfg := by cases e <;> rfl
@[simp] theorem State.ecFlags_cfgValid (e : ErrorControl) (r : BitSeq) : (s.ecFlags e r).cfgValid = s.cfgValid := by cases e <;> rfl
@[simp] theorem State.ecFlags_snap (e : ErrorControl) (r : BitSeq) : (s.ecFlags e r).snap = s.snap := by cases e <;> rfl
@[simp] theorem State.ecFlags_status (e : ErrorControl) (r : BitSeq) : (s.ecFlags e r).status = s.status := by cases e <;> rfl
@[simp] theorem State.ecFlags_warn (e : ErrorControl) (r : BitSeq) : (s.ecFlags e r).warn = s.warn := by cases e <;> rfl
@[simp] theorem State.ecFlags_sigBase (e : ErrorControl) (r : BitSeq) : (s.ecFlags e r).sigBase = s.sigBase := by cases e <;> rfl
@[simp] theorem State.ecFlags_sigMod (e : ErrorControl) (r : BitSeq) : (s.ecFlags e r).sigMod = s.sigMod := by cases e <;> rfl
@[simp] theorem State.ecFlags_sigRx (e : ErrorControl) (r : BitSeq) : (s.ecFlags e r).sigRx = s.sigRx := by cases e <;> rfl
@[simp] theorem State.ecFlags_sigDemod (e : ErrorControl) (r : BitSeq) : (s.ecFlags e r).sigDemod = s.sigDemod := by cases e <;> rfl
@[simp] theorem State.ecFlags_rtext (e : ErrorControl) (r : BitSeq) : (s.ecFlags e r).rtext = s.rtext := by cases e <;> rfl
@[simp] theorem State.ecFlags_flight (e : ErrorControl) (r : BitSeq) : (s.ecFlags e r).flight = s.flight := by cases e <;> rfl
@[simp] theorem State.ecFlags_event (e : ErrorControl) (r : BitSeq) : (s.ecFlags e r).event = s.event := by cases e <;> rfl
@[simp] theorem State.ecFlags_params (e : ErrorControl) (r : BitSeq) : (s.ecFlags e r).params = s.params := by cases e <;> rfl
@[simp] theorem State.ecFlags_noise (e : ErrorControl) (r : BitSeq) : (s.ecFlags e r).noise = s.noise := by cases e <;> rfl
@[simp] theorem State.ecFlags_noiseIx (e : ErrorControl) (r : BitSeq) : (s.ecFlags e r).noiseIx = s.noiseIx := by cases e <;> rfl
@[simp] theorem State.ecFlags_hostActs (e : ErrorControl) (r : BitSeq) : (s.ecFlags e r).hostActs = s.hostActs := by cases e <;> rfl

@[simp] theorem State.chain_out : s.chain.out = s.out := by unfold State.chain; split <;> rfl
@[simp] theorem State.chain_result : s.chain.result = s.result := by unfold State.chain; split <;> rfl
@[simp] theorem State.chain_pstate : s.chain.pstate = s.pstate := by unfold State.chain; split <;> rfl
@[simp] theorem State.chain_cfg : s.chain.cfg = s.cfg := by unfold State.chain; split <;> rfl
@[simp] theorem State.chain_cfgValid : s.chain.cfgValid = s.cfgValid := by unfold State.chain; split <;> rfl
@[simp] theorem State.chain_snap : s.chain.snap = s.snap := by unfold State.chain; split <;> rfl
@[simp] theorem State.chain_status : s.chain.status = s.status := by unfold State.chain; split <;> rfl
@[simp] theorem State.chain_ok : s.chain.ok = s.ok := by unfold State.chain; split <;> rfl
@[simp] theorem State.chain_corrected : s.chain.corrected = s.corrected := by unfold State.chain; split <;> rfl
@[simp] theorem State.chain_warn : s.chain.warn = s.warn := by unfold State.chain; split <;> rfl
@[simp] theorem State.chain_sigBase : s.chain.sigBase = s.sigBase := by unfold State.chain; split <;> rfl
@[simp] theorem State.chain_sigMod : s.chain.sigMod = s.sigMod := by unfold State.chain; split <;> rfl
@[simp] theorem State.chain_sigRx : s.chain.sigRx = s.sigRx := by unfold State.chain; split <;> rfl
@[simp] theorem State.chain_sigDemod : s.chain.sigDemod = s.sigDemod := by unfold State.chain; split <;> rfl
@[simp] theorem State.chain_rtext : s.chain.rtext = s.rtext := by unfold State.chain; split <;> rfl
@[simp] theorem State.chain_flight : s.chain.flight = s.flight := by unfold State.chain; split <;> rfl
@[simp] theorem State.chain_event : s.chain.event = s.event := by unfold State.chain; split <;> rfl
@[simp] theorem State.chain_params : s.chain.params = s.params := by unfold State.chain; split <;> rfl
@[simp] theorem State.chain_noise : s.chain.noise = s.noise := by unfold State.chain; split <;> rfl
@[simp] theorem State.chain_noiseIx : s.chain.noiseIx = s.noiseIx := by unfold State.chain; split <;> rfl
@[simp] theorem State.chain_hostActs : s.chain.hostActs = s.hostActs := by unfold State.chain; split <;> rfl

end Sys2Proof.Machine
end

