-- ==== Sys2Proof/Laws/Ops.lean ====
section
/-! SUPPORT. For each shared operation, once, everything it can do. The provers cite these in place of unfolding. -/

namespace Sys2Proof.Machine

variable (s : State)

/-- Finishing an operation: its fault as the result and nothing else, or its output in OUT, its warning into WARN. -/
theorem State.finish_cases (r : Staged Buf) :
    (∃ t, r = .error t ∧ s.finish r = { s with result := .fault t }) ∨
    (∃ b w, r = .ok (b, w) ∧ s.finish r = { s with warn := s.warn || w, out := b, result := .done }) := by
  rcases r with t | ⟨b, w⟩
  · exact .inl ⟨t, rfl, rfl⟩
  · exact .inr ⟨b, w, rfl, rfl⟩

@[simp] theorem State.finish_of_ok (b : Buf) (w : Bool) :
    s.finish (.ok (b, w)) = { s with warn := s.warn || w, out := b, result := .done } := rfl

@[simp] theorem State.finish_of_error (t : Trap) : s.finish (.error t) = { s with result := .fault t } := rfl

@[simp] theorem asBits_ok (b : BitSeq) (w : Bool) : asBits (.ok (b, w)) = .ok (.bits b, w) := rfl
@[simp] theorem asBits_error (t : Trap) : asBits (.error t) = .error t := rfl
@[simp] theorem asSamples_ok (x : List Sample) (w : Bool) : asSamples (.ok (x, w)) = .ok (.samples x, w) := rfl
@[simp] theorem asSamples_error (t : Trap) : asSamples (.error t) = .error t := rfl

/-- A stand-alone command that needs a configuration: NotConfigured, or the end of the operation. -/
theorem State.ifConfigured_cases (r : Staged (List Sample)) :
    (s.cfgValid = false ∧ s.ifConfigured r = { s with result := .fault ⟨.notConfigured, .none⟩ }) ∨
    (s.cfgValid = true ∧ s.ifConfigured r = s.finish (asSamples r)) := by
  unfold State.ifConfigured
  cases h : s.cfgValid <;> simp [State.raise, h]

/-- A stage of a run: its fault ends the run, or its warning is kept and the next stage follows. -/
theorem State.stage_cases {α : Type} (r : Staged α) (k : α → Flight) :
    (∃ t, r = .error t ∧ s.stage r k = s.abort t) ∨
    (∃ a w, r = .ok (a, w) ∧ s.stage r k = (s.warnIf w).goto (k a)) := by
  rcases r with t | ⟨a, w⟩
  · exact .inl ⟨t, rfl, rfl⟩
  · exact .inr ⟨a, w, rfl, rfl⟩

/-- The flags that EC.RX writes: OK by a verdict, or CORRECTED for Hamming. -/
theorem State.ecFlags_cases (e : ErrorControl) (r : BitSeq) :
    (∃ v, e ≠ .hamming ∧ ecVerdict e r = some v ∧ s.ecFlags e r = s.setOk v) ∨
    (e = .hamming ∧ s.ecFlags e r = s.setCorrected (hamCorrects r)) := by
  cases e
  case hamming => exact .inr ⟨rfl, rfl⟩
  all_goals exact .inl ⟨_, by simp, rfl, rfl⟩

/-- The channel takes as many draws as there are samples. -/
@[simp] theorem State.draws_length (n : Nat) : (s.draws n).length = n := by
  simp only [State.draws, List.length_append, List.length_take, List.length_map, List.length_range]
  omega

/-- The channel never changes the length (R237). -/
@[simp] theorem State.channelOut_length (a : SigmaArg) (x : List Sample) : (s.channelOut a x).length = x.length := by
  unfold State.channelOut
  split <;> simp [addNoise]

/-- The channel at an intensity: the input and no draw, or the noisy input and its draws taken (R237). -/
theorem State.channel_cases (a : SigmaArg) (x : List Sample) :
    (passThrough a = true ∧ s.channelOut a x = x ∧ s.channelDone a x = s) ∨
    (passThrough a = false ∧ s.channelOut a x = addNoise x (s.draws x.length) ∧
      s.channelDone a x = s.afterDraws x.length) := by
  unfold State.channelOut State.channelDone
  cases passThrough a <;> simp

/-- What PL.CONFIGURE asks for, or the first check that fails (R283). -/
theorem requestedCfg_cases :
    (∃ f, configOf s.inCfgw s.inSigma = .error f ∧ requestedCfg s = .error ⟨.invalidConfig, .field f⟩) ∨
    (∃ c t, configOf s.inCfgw s.inSigma = .ok c ∧ configParams s.params c = .error t ∧ requestedCfg s = .error t) ∨
    (∃ c, configOf s.inCfgw s.inSigma = .ok c ∧ configParams s.params c = .ok () ∧ requestedCfg s = .ok c) := by
  unfold requestedCfg
  cases h : configOf s.inCfgw s.inSigma with
  | error f => exact .inl ⟨f, rfl, rfl⟩
  | ok c =>
    cases h' : configParams s.params c with
    | error t => exact .inr (.inl ⟨c, t, rfl, h', by simp [h']⟩)
    | ok u => exact .inr (.inr ⟨c, rfl, h', by simp [h']⟩)

/-- One step: the head of the host's script, in the state it leaves when it is taken off; an empty script is a pass. -/
theorem step_eq : step s = s.consume.act (s.hostActs.headD .pass) := rfl

/-- Where the host presents a legal command byte, a step is exec of the operation. -/
theorem State.command_ok {c : CmdWord} {i : Instr} (h : decode c = .ok i) : s.command c = exec i s := by
  simp [State.command, h]

/-- Where the host presents a reserved byte, the step only reports InvalidCommand. -/
theorem State.command_error {c : CmdWord} {r : Reserved} (h : decode c = .error r) :
    s.command c = .next { s with result := .fault ⟨.invalidCommand, .command c⟩ } := by
  simp [State.command, h, State.raise]

end Sys2Proof.Machine
end

