-- ==== Sys2Proof/Laws/PerInstr.lean ====
section
/-! SUPPORT. The family Encoding: of each operation, its command fields are legal (R64) and its command byte holds them
where R60 places them. -/

namespace Sys2Proof.Laws.Encoding

/-- An operation's fields are legal, and its byte is UNIT in bits 7 to 5, SCHEME in bits 4 to 2, FN in bits 1 to 0. -/
def Statement (i : Instr) : Prop :=
  i.wf = true ∧ (encode i).toNat = 32 * i.fields.unit + 4 * i.fields.scheme + i.fields.fn

theorem frmCcEnc : Statement .frmCcEnc := ⟨rfl, rfl⟩
theorem frmCcDec : Statement .frmCcDec := ⟨rfl, rfl⟩
theorem frmBsEnc : Statement .frmBsEnc := ⟨rfl, rfl⟩
theorem frmBsDec : Statement .frmBsDec := ⟨rfl, rfl⟩
theorem frmBitEnc : Statement .frmBitEnc := ⟨rfl, rfl⟩
theorem frmBitDec : Statement .frmBitDec := ⟨rfl, rfl⟩
theorem ecNoneEnc : Statement .ecNoneEnc := ⟨rfl, rfl⟩
theorem ecNoneChk : Statement .ecNoneChk := ⟨rfl, rfl⟩
theorem ecNoneStrip : Statement .ecNoneStrip := ⟨rfl, rfl⟩
theorem ecParEnc : Statement .ecParEnc := ⟨rfl, rfl⟩
theorem ecParChk : Statement .ecParChk := ⟨rfl, rfl⟩
theorem ecParStrip : Statement .ecParStrip := ⟨rfl, rfl⟩
theorem ecSumEnc : Statement .ecSumEnc := ⟨rfl, rfl⟩
theorem ecSumChk : Statement .ecSumChk := ⟨rfl, rfl⟩
theorem ecSumStrip : Statement .ecSumStrip := ⟨rfl, rfl⟩
theorem ecCrcEnc : Statement .ecCrcEnc := ⟨rfl, rfl⟩
theorem ecCrcChk : Statement .ecCrcChk := ⟨rfl, rfl⟩
theorem ecCrcStrip : Statement .ecCrcStrip := ⟨rfl, rfl⟩
theorem ecHamEnc : Statement .ecHamEnc := ⟨rfl, rfl⟩
theorem ecHamDec : Statement .ecHamDec := ⟨rfl, rfl⟩
theorem lcNrzEnc : Statement .lcNrzEnc := ⟨rfl, rfl⟩
theorem lcNrzDec : Statement .lcNrzDec := ⟨rfl, rfl⟩
theorem lcManEnc : Statement .lcManEnc := ⟨rfl, rfl⟩
theorem lcManDec : Statement .lcManDec := ⟨rfl, rfl⟩
theorem lcAmiEnc : Statement .lcAmiEnc := ⟨rfl, rfl⟩
theorem lcAmiDec : Statement .lcAmiDec := ⟨rfl, rfl⟩
theorem cmAskMod : Statement .cmAskMod := ⟨rfl, rfl⟩
theorem cmAskDem : Statement .cmAskDem := ⟨rfl, rfl⟩
theorem cmFskMod : Statement .cmFskMod := ⟨rfl, rfl⟩
theorem cmFskDem : Statement .cmFskDem := ⟨rfl, rfl⟩
theorem cmBpskMod : Statement .cmBpskMod := ⟨rfl, rfl⟩
theorem cmBpskDem : Statement .cmBpskDem := ⟨rfl, rfl⟩
theorem cmQpskMod : Statement .cmQpskMod := ⟨rfl, rfl⟩
theorem cmQpskDem : Statement .cmQpskDem := ⟨rfl, rfl⟩
theorem cm8pskMod : Statement .cm8pskMod := ⟨rfl, rfl⟩
theorem cm8pskDem : Statement .cm8pskDem := ⟨rfl, rfl⟩
theorem cmQam16Mod : Statement .cmQam16Mod := ⟨rfl, rfl⟩
theorem cmQam16Dem : Statement .cmQam16Dem := ⟨rfl, rfl⟩
theorem abAskFwd : Statement .abAskFwd := ⟨rfl, rfl⟩
theorem abAskRev : Statement .abAskRev := ⟨rfl, rfl⟩
theorem abFskFwd : Statement .abFskFwd := ⟨rfl, rfl⟩
theorem abFskRev : Statement .abFskRev := ⟨rfl, rfl⟩
theorem abBpskFwd : Statement .abBpskFwd := ⟨rfl, rfl⟩
theorem abBpskRev : Statement .abBpskRev := ⟨rfl, rfl⟩
theorem abQpskFwd : Statement .abQpskFwd := ⟨rfl, rfl⟩
theorem abQpskRev : Statement .abQpskRev := ⟨rfl, rfl⟩
theorem ab8pskFwd : Statement .ab8pskFwd := ⟨rfl, rfl⟩
theorem ab8pskRev : Statement .ab8pskRev := ⟨rfl, rfl⟩
theorem abQam16Fwd : Statement .abQam16Fwd := ⟨rfl, rfl⟩
theorem abQam16Rev : Statement .abQam16Rev := ⟨rfl, rfl⟩
theorem chNoise : Statement .chNoise := ⟨rfl, rfl⟩
theorem txtEnc : Statement .txtEnc := ⟨rfl, rfl⟩
theorem txtDec : Statement .txtDec := ⟨rfl, rfl⟩
theorem plConfigure : Statement .plConfigure := ⟨rfl, rfl⟩
theorem plTransmit : Statement .plTransmit := ⟨rfl, rfl⟩
theorem plInspect : Statement .plInspect := ⟨rfl, rfl⟩

end Sys2Proof.Laws.Encoding
end

