-- ==== Sys2Proof/Laws/SampleReal.lean ====
section
/-! SUPPORT. The type `Sample` is a system of real numbers (log 1): `Sample.toReal` reads a number as a real, each
operation of Machine/Sample.lean is the operation on the reals, and `Sample.lt` is their order. -/

namespace Sys2Proof.Machine

open Real

@[simp] theorem termsReal_nil : termsReal [] = 0 := rfl

@[simp] theorem termsReal_cons (t : ℚ × ℚ) (l : List (ℚ × ℚ)) : termsReal (t :: l) = termReal t + termsReal l := by
  simp [termsReal]

theorem termsReal_insertTerm (q c : ℚ) (l : List (ℚ × ℚ)) :
    termsReal (insertTerm q c l) = termReal (q, c) + termsReal l := by
  induction l with
  | nil => by_cases h : c = 0 <;> simp [insertTerm, h, termReal]
  | cons t l ih =>
    by_cases h1 : q < t.1
    · by_cases h : c = 0 <;> simp [insertTerm, h1, h, termReal]
    · by_cases h2 : q = t.1
      · have key : termReal (q, c) + termReal t = ((c + t.2 : ℚ) : ℝ) * cos (2 * π * (q : ℝ)) := by
          simp only [termReal, h2]; push_cast; ring
        by_cases h : c + t.2 = 0
        · rw [termsReal_cons, ← add_assoc, key, h]; simp [insertTerm, h2, h]
        · rw [termsReal_cons, ← add_assoc, key]; simp [insertTerm, h2, h, termReal]
      · simp only [insertTerm, h1, h2, if_false, termsReal_cons, ih]; ring

@[simp] theorem Sample.zero_toReal : Sample.zero.toReal = 0 := rfl

@[simp] theorem Sample.ofRat_toReal (r : ℚ) : (Sample.ofRat r).toReal = r := by
  by_cases h : r = 0 <;> simp [Sample.ofRat, Sample.toReal, h, termReal]

@[simp] theorem Sample.add_toReal (x y : Sample) : (x.add y).toReal = x.toReal + y.toReal := by
  obtain ⟨l⟩ := x
  simp only [Sample.add, Sample.toReal]
  induction l with
  | nil => simp
  | cons t l ih => simp [List.foldr_cons, termsReal_insertTerm, ih, add_assoc]

@[simp] theorem Sample.scale_toReal (r : ℚ) (x : Sample) : (x.scale r).toReal = r * x.toReal := by
  by_cases h : r = 0
  · simp [Sample.scale, Sample.toReal, h]
  · obtain ⟨l⟩ := x
    simp only [Sample.scale, h, if_false, Sample.toReal]
    induction l with
    | nil => simp
    | cons t l ih => simp only [List.map_cons, termsReal_cons, ih, termReal]; push_cast; ring

@[simp] theorem Sample.neg_toReal (x : Sample) : x.neg.toReal = -x.toReal := by simp [Sample.neg]

@[simp] theorem Sample.sub_toReal (x y : Sample) : (x.sub y).toReal = x.toReal - y.toReal := by
  simp [Sample.sub, sub_eq_add_neg]

@[simp] theorem Sample.sum_toReal (l : List Sample) : (Sample.sum l).toReal = (l.map Sample.toReal).sum := by
  induction l with
  | nil => rfl
  | cons x l ih => simpa [Sample.sum] using congrArg (x.toReal + ·) ih

theorem cosTerm_toReal (q c : ℚ) : (cosTerm q c).toReal = c * cos (2 * π * q) := by
  set a : ℚ := q - (⌊q⌋ : ℤ) with ha
  set b : ℚ := if 1/2 < a then 1 - a else a with hb
  have hcos : cos (2 * π * (q : ℝ)) = cos (2 * π * (b : ℝ)) := by
    have h1 : cos (2 * π * (q : ℝ)) = cos (2 * π * (a : ℝ)) := by
      have : 2 * π * (q : ℝ) = 2 * π * (a : ℝ) + (⌊q⌋ : ℤ) * (2 * π) := by rw [ha]; push_cast; ring
      rw [this, cos_add_int_mul_two_pi]
    rw [h1, hb]
    split
    · have : 2 * π * ((1 - a : ℚ) : ℝ) = 2 * π - 2 * π * (a : ℝ) := by push_cast; ring
      rw [this, cos_two_pi_sub]
    · rfl
  rw [hcos]
  simp only [cosTerm, ← ha, ← hb]
  split_ifs with h1 h2 h3 h4
  · have : 2 * π * (b : ℝ) = π / 3 := by rw [h1]; push_cast; ring
    rw [this, cos_pi_div_three, Sample.ofRat_toReal]; push_cast; ring
  · have : 2 * π * (b : ℝ) = π / 2 := by rw [h2]; push_cast; ring
    rw [this, cos_pi_div_two]; simp
  · have : 2 * π * (b : ℝ) = π - π / 3 := by rw [h3]; push_cast; ring
    rw [this, cos_pi_sub, cos_pi_div_three, Sample.ofRat_toReal]; push_cast; ring
  · simp [Sample.toReal, termsReal_insertTerm, termReal]
  · have : 2 * π * ((1/2 - b : ℚ) : ℝ) = π - 2 * π * (b : ℝ) := by push_cast; ring
    simp only [Sample.toReal, termsReal_insertTerm, termReal, this, cos_pi_sub]; push_cast; simp

@[simp] theorem Sample.cosTurns_toReal (q : ℚ) : (Sample.cosTurns q).toReal = cos (2 * π * q) := by
  simp [Sample.cosTurns, cosTerm_toReal]

@[simp] theorem Sample.sinTurns_toReal (q : ℚ) : (Sample.sinTurns q).toReal = sin (2 * π * q) := by
  rw [Sample.sinTurns, cosTerm_toReal]
  have : 2 * π * ((q - 1/4 : ℚ) : ℝ) = 2 * π * q - π / 2 := by push_cast; ring
  rw [this, cos_sub_pi_div_two]; simp

theorem mulTerm_toReal (s t : ℚ × ℚ) : (mulTerm s t).toReal = termReal s * termReal t := by
  rw [mulTerm, Sample.add_toReal, cosTerm_toReal, cosTerm_toReal]
  have h1 : 2 * π * ((s.1 + t.1 : ℚ) : ℝ) = 2 * π * s.1 + 2 * π * t.1 := by push_cast; ring
  have h2 : 2 * π * ((s.1 - t.1 : ℚ) : ℝ) = 2 * π * s.1 - 2 * π * t.1 := by push_cast; ring
  rw [h1, h2, cos_add, cos_sub]; simp only [termReal]; push_cast; ring

@[simp] theorem Sample.mul_toReal (x y : Sample) : (x.mul y).toReal = x.toReal * y.toReal := by
  have inner (s : ℚ × ℚ) (l : List (ℚ × ℚ)) (acc : Sample) :
      (l.foldr (fun t acc' => (mulTerm s t).add acc') acc).toReal = termReal s * termsReal l + acc.toReal := by
    induction l with
    | nil => simp
    | cons t l ih => simp [ih, mulTerm_toReal]; ring
  obtain ⟨l⟩ := x
  simp only [Sample.mul]
  induction l with
  | nil => simp [Sample.toReal, Sample.zero]
  | cons s l ih => simp only [List.foldr_cons, inner, ih]; simp [Sample.toReal]; ring

end Sys2Proof.Machine
end

