-- ==== Sys2Proof/Laws/SampleOrder.lean ====
section
/-! SUPPORT. `Sample.lt` is the order of the reals (log 1): the bracket of cos(π/n) holds it, the approximation of a
number is as near as its bound says, and a number that enough halvings do not separate from 0 is 0. -/

namespace Sys2Proof.Machine

open Real

section Bracket

/-- The Chebyshev values from two consecutive ones, as the sines they are. -/
theorem chebNonneg_iff_sin {x : ℚ} {θ : ℝ} (hx : (x : ℝ) = cos θ) (hs : 0 < sin θ) (k j : ℕ) (a b : ℚ)
    (ha : (a : ℝ) * sin θ = sin ((j + 1) * θ)) (hb : (b : ℝ) * sin θ = sin ((j + 2) * θ)) :
    chebNonneg x k a b = true ↔ ∀ i < k, 0 ≤ sin ((j + i + 1) * θ) := by
  induction k generalizing j a b with
  | zero => simp [chebNonneg]
  | succ k ih =>
    have hb' : ((2 * x * b - a : ℚ) : ℝ) * sin θ = sin (((j + 1 : ℕ) + 2) * θ) := by
      have e : sin (((j + 1 : ℕ) + 2) * θ) = 2 * cos θ * sin ((j + 2) * θ) - sin ((j + 1) * θ) := by
        have h1 : (((j + 1 : ℕ) : ℝ) + 2) * θ = (j + 2) * θ + θ := by push_cast; ring
        have h2 : ((j : ℝ) + 1) * θ = (j + 2) * θ - θ := by ring
        rw [h1, h2, sin_add, sin_sub]; ring
      rw [e, ← ha, ← hb, ← hx]; push_cast; ring
    have hstep := ih (j + 1) b (2 * x * b - a) (by rw [hb]; push_cast; ring_nf) hb'
    have h0 : 0 ≤ a ↔ 0 ≤ sin ((j + 1) * θ) := by
      rw [← ha, mul_nonneg_iff_of_pos_right hs]; exact_mod_cast Iff.rfl
    simp only [chebNonneg, Bool.and_eq_true, decide_eq_true_eq, hstep, h0]
    constructor
    · rintro ⟨h, h'⟩ i hi
      rcases i with _ | i
      · simpa using h
      · have := h' i (by omega); push_cast at this ⊢; convert this using 2; ring
    · intro h
      refine ⟨by simpa using h 0 (by omega), fun i hi => ?_⟩
      have := h (i + 1) (by omega); push_cast at this ⊢; convert this using 2; ring

/-- A midpoint passes the test exactly when it is at or above cos(π/n). -/
theorem chebNonneg_iff_cos_le {x : ℚ} {n : ℕ} (hn : 1 ≤ n) (h1 : -1 < (x : ℝ)) (h2 : (x : ℝ) < 1) :
    chebNonneg x n 1 (2 * x) = true ↔ cos (π / n) ≤ x := by
  set θ := arccos (x : ℝ) with hθ
  have hx : (x : ℝ) = cos θ := (cos_arccos h1.le h2.le).symm
  have hpos : 0 < θ := arccos_pos.2 h2
  have hlt : θ < π := lt_of_le_of_ne (arccos_le_pi _) (by rw [hθ, Ne, arccos_eq_pi]; linarith)
  have hs : 0 < sin θ := sin_pos_of_pos_of_lt_pi hpos hlt
  have hnR : (1 : ℝ) ≤ n := by exact_mod_cast hn
  have hpn : 0 ≤ π / n := by positivity
  have hpn' : π / n ≤ π := div_le_self pi_pos.le hnR
  rw [chebNonneg_iff_sin hx hs n 0 1 (2 * x) (by simp)
    (by push_cast; rw [hx]; have := sin_two_mul θ; simp only [zero_add]; rw [this]; ring)]
  rw [hx, strictAntiOn_cos.le_iff_ge ⟨hpn, hpn'⟩ ⟨hpos.le, hlt.le⟩]
  constructor
  · intro h
    by_contra hc
    push Not at hc
    have hnθ : π < n * θ := by rw [div_lt_iff₀ (by linarith)] at hc; linarith
    set j := ⌊π / θ⌋₊ with hj
    have hj1 : (j : ℝ) * θ ≤ π := by
      have := Nat.floor_le (div_nonneg pi_pos.le hpos.le); rw [← hj, le_div_iff₀ hpos] at this; exact this
    have hj2 : π < (j + 1) * θ := by
      have := Nat.lt_floor_add_one (π / θ); rw [← hj, div_lt_iff₀ hpos] at this; exact this
    have hjn : j < n := by
      by_contra hge
      push Not at hge
      have : (n : ℝ) * θ ≤ j * θ := mul_le_mul_of_nonneg_right (by exact_mod_cast hge) hpos.le
      linarith
    have := h j hjn
    have hneg : sin ((j + 1) * θ) < 0 := by
      have e : ((j : ℝ) + 1) * θ = ((j + 1) * θ - π) + π := by ring
      rw [e, sin_add_pi, neg_lt_zero]
      apply sin_pos_of_pos_of_lt_pi <;> nlinarith
    simp only [Nat.cast_zero, zero_add] at this
    linarith
  · intro h i hi
    apply sin_nonneg_of_nonneg_of_le_pi
    · positivity
    · have hi' : ((0 : ℕ) : ℝ) + i + 1 ≤ n := by push_cast; rw [zero_add]; exact_mod_cast hi
      calc (((0 : ℕ) : ℝ) + i + 1) * θ ≤ n * θ := mul_le_mul_of_nonneg_right hi' hpos.le
        _ ≤ n * (π / n) := mul_le_mul_of_nonneg_left h (by linarith)
        _ = π := by field_simp

/-- The bracket holds cos(π/n) and lies in [−1, 1]. -/
theorem cosBracket_spec {n : ℕ} (hn : 1 ≤ n) (t : ℕ) :
    (-(2 ^ t : ℤ) ≤ cosBracket n t ∧ cosBracket n t + 2 ≤ (2 ^ t : ℤ)) ∧
    ((cosBracket n t : ℝ) / 2 ^ t ≤ cos (π / n) ∧ cos (π / n) ≤ ((cosBracket n t : ℝ) + 2) / 2 ^ t) := by
  induction t with
  | zero =>
    refine ⟨by simp [cosBracket], ?_, ?_⟩
    · simpa [cosBracket] using neg_one_le_cos _
    · norm_num [cosBracket]; exact cos_le_one _
  | succ t ih =>
    obtain ⟨⟨h1, h2⟩, h3, h4⟩ := ih
    set l := cosBracket n t with hl
    set x : ℚ := ((l + 1 : ℤ) : ℚ) / (2 ^ t : ℕ) with hx
    have hxR : (x : ℝ) = ((l : ℝ) + 1) / 2 ^ t := by rw [hx]; push_cast; ring
    have hp : (0 : ℝ) < 2 ^ t := by positivity
    have h1' : -(2 ^ t : ℝ) ≤ l := by exact_mod_cast h1
    have h2' : (l : ℝ) + 2 ≤ 2 ^ t := by exact_mod_cast h2
    have hx1 : -1 < (x : ℝ) := by rw [hxR, lt_div_iff₀ hp]; linarith
    have hx2 : (x : ℝ) < 1 := by rw [hxR, div_lt_iff₀ hp]; linarith
    have key := chebNonneg_iff_cos_le hn hx1 hx2
    have hstep : cosBracket n (t + 1) = if chebNonneg x n 1 (2 * x) then 2 * l else 2 * l + 2 := by
      rw [cosBracket]
    rw [hstep]
    have e (y : ℝ) : y / 2 ^ (t + 1) = (y / 2) / 2 ^ t := by rw [pow_succ]; field_simp
    have e2 : (2 : ℤ) ^ (t + 1) = 2 * 2 ^ t := by ring
    split_ifs with hc
    · have hc' := key.1 hc
      rw [hxR] at hc'
      refine ⟨⟨by rw [e2]; linarith, by rw [e2]; linarith⟩, ?_, ?_⟩
      · rw [e]; push_cast; convert h3 using 2; ring
      · rw [e]; push_cast; convert hc' using 2; ring
    · have hc' : (x : ℝ) < cos (π / n) := not_le.1 fun h => hc (key.2 h)
      rw [hxR] at hc'
      refine ⟨⟨by rw [e2]; linarith, by rw [e2]; linarith⟩, ?_, ?_⟩
      · rw [e]; push_cast; refine le_trans (le_of_eq ?_) hc'.le; ring
      · rw [e]; push_cast; refine le_trans h4 (le_of_eq ?_); ring

end Bracket

section Approximation

/-- The recurrence from cosines gives cosines. -/
theorem chebValue_cos {x : ℚ} {θ : ℝ} (hx : (x : ℝ) = cos θ) (k j : ℕ) (a b : ℚ)
    (ha : (a : ℝ) = cos (j * θ)) (hb : (b : ℝ) = cos ((j + 1) * θ)) : (chebValue x k a b : ℝ) = cos ((j + k) * θ) := by
  induction k generalizing j a b with
  | zero => simpa [chebValue] using ha
  | succ k ih =>
    have hb' : ((2 * x * b - a : ℚ) : ℝ) = cos (((j + 1 : ℕ) + 1) * θ) := by
      have h1 : (((j + 1 : ℕ) : ℝ) + 1) * θ = (j + 1) * θ + θ := by push_cast; ring
      have h2 : (j : ℝ) * θ = (j + 1) * θ - θ := by ring
      push_cast [ha, hb, hx]; rw [h2]
      push_cast at h1; rw [h1, cos_add, cos_sub]; ring
    rw [chebValue, ih (j + 1) b _ (by rw [hb]; push_cast; ring_nf) hb']
    push_cast; ring_nf

theorem abs_sin_nat_mul_le (n : ℕ) (t : ℝ) : |sin (n * t)| ≤ n * |sin t| := by
  induction n with
  | zero => simp
  | succ n ih =>
    have : ((n + 1 : ℕ) : ℝ) * t = n * t + t := by push_cast; ring
    rw [this, sin_add]
    calc |sin (n * t) * cos t + cos (n * t) * sin t|
        ≤ |sin (n * t)| * |cos t| + |cos (n * t)| * |sin t| := by
          simpa [abs_mul] using abs_add_le (sin (n * t) * cos t) (cos (n * t) * sin t)
      _ ≤ |sin (n * t)| * 1 + 1 * |sin t| := by
          gcongr
          · exact abs_cos_le_one _
          · exact abs_cos_le_one _
      _ ≤ (n + 1 : ℕ) * |sin t| := by push_cast; linarith

/-- cos of an n-fold angle moves at most n² times as much as cos of the angle. -/
theorem abs_cos_nat_mul_sub_le (n : ℕ) (a b : ℝ) :
    |cos (n * a) - cos (n * b)| ≤ (n : ℝ) ^ 2 * |cos a - cos b| := by
  rw [cos_sub_cos, cos_sub_cos]
  have h1 : (n * a + n * b) / 2 = n * ((a + b) / 2) := by ring
  have h2 : (n * a - n * b) / 2 = n * ((a - b) / 2) := by ring
  rw [h1, h2, abs_mul, abs_mul, abs_mul, abs_mul]
  have := mul_le_mul (abs_sin_nat_mul_le n ((a + b) / 2)) (abs_sin_nat_mul_le n ((a - b) / 2)) (abs_nonneg _) (by positivity)
  norm_num
  nlinarith [this]

/-- The harmonic number's cosine is the term's. -/
theorem cos_harmonic {n : ℕ} (hn : 1 ≤ n) (q : ℚ) (hq : q.den ∣ n) :
    cos (harmonic n q * (π / n)) = cos (2 * π * q) := by
  obtain ⟨m, rfl⟩ := hq
  have hden : (q.den : ℝ) ≠ 0 := by exact_mod_cast q.den_nz
  have hm : (m : ℝ) ≠ 0 := by
    rintro h; have : m = 0 := by exact_mod_cast h
    simp [this] at hn
  have hq : (q : ℝ) = q.num / q.den := by exact_mod_cast (Rat.num_div_den q).symm
  have hdiv : q.den * m / q.den = m := Nat.mul_div_cancel_left m q.den_pos
  have habs : ((q.num.natAbs : ℕ) : ℝ) = |(q.num : ℝ)| := by simp [Nat.cast_natAbs]
  rw [harmonic, hdiv]
  push_cast
  rw [habs, ← cos_abs (2 * π * q)]
  congr 1
  rw [abs_mul, abs_of_pos (by positivity : (0 : ℝ) < 2 * π), hq, abs_div, abs_of_nonneg (Nat.cast_nonneg q.den : (0 : ℝ) ≤ q.den)]
  field_simp

/-- The approximation's error is at most its slope times the error of x. -/
theorem approxAt_error {n : ℕ} (hn : 1 ≤ n) {x : ℚ} (h1 : -1 ≤ (x : ℝ)) (h2 : (x : ℝ) ≤ 1) (l : List (ℚ × ℚ))
    (hl : ∀ t ∈ l, t.1.den ∣ n) :
    |(approxAt n x l : ℝ) - termsReal l| ≤ (approxSlope n l : ℝ) * |(x : ℝ) - cos (π / n)| := by
  induction l with
  | nil => simp [approxAt, approxSlope]
  | cons t l ih =>
    have ih' := ih fun s hs => hl s (List.mem_cons_of_mem _ hs)
    have hx : (x : ℝ) = cos (arccos x) := (cos_arccos h1 h2).symm
    have hT : (chebValue x (harmonic n t.1) 1 x : ℝ) = cos (harmonic n t.1 * arccos x) := by
      have := chebValue_cos hx (harmonic n t.1) 0 1 x (by simp) (by simpa using hx)
      simpa using this
    have hc := cos_harmonic hn t.1 (hl t (List.mem_cons_self ..))
    have hd := abs_cos_nat_mul_sub_le (harmonic n t.1) (arccos x) (π / n)
    rw [← hx] at hd
    have e1 : (approxAt n x (t :: l) : ℝ) = (t.2 : ℝ) * chebValue x (harmonic n t.1) 1 x + approxAt n x l := by
      simp [approxAt]
    have e2 : (approxSlope n (t :: l) : ℝ) = |(t.2 : ℝ)| * (harmonic n t.1 : ℝ) ^ 2 + approxSlope n l := by
      simp [approxSlope]
    have e3 : termsReal (t :: l) = (t.2 : ℝ) * cos (harmonic n t.1 * (π / n)) + termsReal l := by
      rw [termsReal_cons, termReal, hc]
    rw [e1, e2, e3, hT]
    calc |(t.2 : ℝ) * cos (harmonic n t.1 * arccos x) + approxAt n x l
            - ((t.2 : ℝ) * cos (harmonic n t.1 * (π / n)) + termsReal l)|
        = |(t.2 : ℝ) * (cos (harmonic n t.1 * arccos x) - cos (harmonic n t.1 * (π / n)))
            + (approxAt n x l - termsReal l)| := by ring_nf
      _ ≤ |(t.2 : ℝ)| * |cos (harmonic n t.1 * arccos x) - cos (harmonic n t.1 * (π / n))|
            + |(approxAt n x l : ℝ) - termsReal l| := by
          rw [← abs_mul]; exact abs_add_le _ _
      _ ≤ |(t.2 : ℝ)| * ((harmonic n t.1 : ℝ) ^ 2 * |(x : ℝ) - cos (π / n)|)
            + (approxSlope n l : ℝ) * |(x : ℝ) - cos (π / n)| := by gcongr
      _ = _ := by ring

end Approximation

end Sys2Proof.Machine
end

