-- ==== Sys2Proof/Laws/SampleSign.lean ====
section
/-! SUPPORT. A number that is not 0 is at least 1/(2·D·B^n) away from it, by the norm of an algebraic integer of the
n-th cyclotomic field; so the sign that `Sample.sign` answers is the sign of the real, and `Sample.lt` is `<` (log 1). -/

namespace Sys2Proof.Machine

open Real IntermediateField

section Separation

/-- An algebraic integer of a field of degree at most n, whose conjugates are at most B, is 0 or at least 1/B^n. -/
theorem norm_separation {K : IntermediateField ℚ ℂ} [FiniteDimensional ℚ K] {n : ℕ} (hdeg : Module.finrank ℚ K ≤ n)
    (b : K) (hint : IsIntegral ℤ b) (B : ℝ) (hB : 1 ≤ B) (hconj : ∀ σ : K →ₐ[ℚ] ℂ, ‖σ b‖ ≤ B) (hb : b ≠ 0) :
    1 ≤ ‖(b : ℂ)‖ * B ^ n := by
  classical
  have hnint : IsIntegral ℤ (Algebra.norm ℚ b) := Algebra.isIntegral_norm ℚ hint
  obtain ⟨m, hm⟩ := IsIntegrallyClosed.isIntegral_iff.1 hnint
  have hm0 : m ≠ 0 := by
    rintro rfl
    exact (Algebra.norm_ne_zero_iff.2 hb) (by rw [← hm]; simp)
  have hprod := Algebra.norm_eq_prod_embeddings ℚ ℂ b
  rw [← hm] at hprod
  have h1 : (1 : ℝ) ≤ ∏ σ : K →ₐ[ℚ] ℂ, ‖σ b‖ := by
    rw [← norm_prod, ← hprod]
    have : ‖algebraMap ℚ ℂ (algebraMap ℤ ℚ m)‖ = |(m : ℝ)| := by simp
    rw [this]; exact_mod_cast Int.one_le_abs hm0
  rw [← Finset.mul_prod_erase Finset.univ (fun σ : K →ₐ[ℚ] ℂ => ‖σ b‖) (Finset.mem_univ K.val)] at h1
  have hcard : (Finset.univ.erase K.val).card ≤ n := by
    rw [Finset.card_erase_of_mem (Finset.mem_univ _), Finset.card_univ, AlgHom.card]
    omega
  have h2 : ∏ σ ∈ Finset.univ.erase K.val, ‖σ b‖ ≤ B ^ n :=
    (Finset.prod_le_prod (fun _ _ => norm_nonneg _) fun σ _ => hconj σ).trans
      ((Finset.prod_const _).le.trans (pow_le_pow_right₀ hB hcard))
  exact h1.trans (mul_le_mul_of_nonneg_left h2 (norm_nonneg _))

/-- The same for an integer combination of z^k + z^(−k), z a primitive n-th root of unity. -/
theorem sum_separation {n : ℕ} (hn : 1 ≤ n) (l : List (ℤ × ℤ)) (B : ℝ) (hB : 1 ≤ B)
    (hsum : (l.map fun t => 2 * |(t.2 : ℝ)|).sum ≤ B)
    (h0 : (l.map fun t => 2 * (t.2 : ℝ) * cos (2 * π * (t.1 / n))).sum ≠ 0) :
    1 ≤ |(l.map fun t => 2 * (t.2 : ℝ) * cos (2 * π * (t.1 / n))).sum| * B ^ n := by
  set ζ : ℂ := Complex.exp (2 * π * Complex.I / n) with hζ
  have hn0 : (n : ℂ) ≠ 0 := by exact_mod_cast (by omega : n ≠ 0)
  have hζn : ζ ^ n = 1 := by
    rw [hζ, ← Complex.exp_nat_mul, mul_div_cancel₀ _ hn0, Complex.exp_two_pi_mul_I]
  have hpoly : (Polynomial.X ^ n - 1 : Polynomial ℚ).Monic := Polynomial.monic_X_pow_sub_C 1 (by omega)
  have hroot : Polynomial.aeval ζ (Polynomial.X ^ n - 1 : Polynomial ℚ) = 0 := by simp [hζn]
  have hζint : IsIntegral ℚ ζ := ⟨_, hpoly, by simpa [Polynomial.aeval_def] using hroot⟩
  have : FiniteDimensional ℚ ℚ⟮ζ⟯ := adjoin.finiteDimensional hζint
  have hdeg : Module.finrank ℚ ℚ⟮ζ⟯ ≤ n := by
    rw [adjoin.finrank hζint]
    have := minpoly.min ℚ ζ hpoly hroot
    have h2 := Polynomial.natDegree_le_natDegree this
    rwa [show (Polynomial.X ^ n - 1 : Polynomial ℚ) = Polynomial.X ^ n - Polynomial.C 1 by simp,
      Polynomial.natDegree_X_pow_sub_C] at h2
  set z : ℚ⟮ζ⟯ := AdjoinSimple.gen ℚ ζ with hz
  have hzn : z ^ n = 1 := by apply Subtype.ext; simpa [hz] using hζn
  have hz0 : z ≠ 0 := by rintro h; rw [h, zero_pow (by omega)] at hzn; exact zero_ne_one hzn
  have hzint : IsIntegral ℤ z :=
    ⟨Polynomial.X ^ n - 1, Polynomial.monic_X_pow_sub_C 1 (by omega), by simp [hzn]⟩
  have hziint : IsIntegral ℤ z⁻¹ :=
    ⟨Polynomial.X ^ n - 1, Polynomial.monic_X_pow_sub_C 1 (by omega), by simp [hzn]⟩
  have hzpow (k : ℤ) : IsIntegral ℤ (z ^ k) := by
    rcases k with k | k
    · simpa using hzint.pow k
    · rw [zpow_negSucc, ← inv_pow]; exact hziint.pow _
  have hnormz (σ : ℚ⟮ζ⟯ →ₐ[ℚ] ℂ) : ‖σ z‖ = 1 :=
    (pow_eq_one_iff_of_nonneg (norm_nonneg _) (by omega : n ≠ 0)).1 (by rw [← norm_pow, ← map_pow, hzn, map_one, norm_one])
  set b : ℚ⟮ζ⟯ := (l.map fun t => (t.2 : ℚ⟮ζ⟯) * (z ^ t.1 + z ^ (-t.1))).sum with hb
  have hbint : IsIntegral ℤ b := by
    rw [hb]; clear hb b hsum h0
    induction l with
    | nil => simpa using isIntegral_zero
    | cons t l ih =>
      simp only [List.map_cons, List.sum_cons]
      have h1 : IsIntegral ℤ (t.2 : ℚ⟮ζ⟯) := by simpa using (isIntegral_algebraMap : IsIntegral ℤ (algebraMap ℤ ℚ⟮ζ⟯ t.2))
      exact (h1.mul ((hzpow _).add (hzpow _))).add ih
  have hconj (σ : ℚ⟮ζ⟯ →ₐ[ℚ] ℂ) : ‖σ b‖ ≤ B := by
    refine le_trans ?_ hsum
    rw [hb]; clear hb b hsum h0 hbint
    induction l with
    | nil => simp
    | cons t l ih =>
      simp only [List.map_cons, List.sum_cons, map_add, map_mul, map_zpow₀, map_intCast]
      refine (norm_add_le _ _).trans (add_le_add ?_ ih)
      rw [norm_mul]
      have h1 : ‖(t.2 : ℂ)‖ = |(t.2 : ℝ)| := by simp
      have h2 : ‖σ z ^ t.1 + σ z ^ (-t.1)‖ ≤ 2 := by
        refine (norm_add_le _ _).trans (le_of_eq ?_)
        rw [norm_zpow, norm_zpow, hnormz]; norm_num
      rw [h1]; nlinarith [abs_nonneg (t.2 : ℝ)]
  have hval : (b : ℂ) = ((l.map fun t => 2 * (t.2 : ℝ) * cos (2 * π * (t.1 / n))).sum : ℝ) := by
    rw [hb]; clear hb b hsum h0 hbint hconj
    induction l with
    | nil => simp
    | cons t l ih =>
      simp only [List.map_cons, List.sum_cons, Complex.ofReal_add]
      rw [← ih]
      have hgen : ℚ⟮ζ⟯.val z = ζ := by simp [hz]
      have e (k : ℤ) : ζ ^ k = Complex.exp (k * (2 * π * Complex.I / n)) := by rw [hζ, ← Complex.exp_int_mul]
      have hterm : ((((t.2 : ℚ⟮ζ⟯) * (z ^ t.1 + z ^ (-t.1)) : ℚ⟮ζ⟯)) : ℂ) = t.2 * (ζ ^ t.1 + ζ ^ (-t.1)) := by
        have := map_mul ℚ⟮ζ⟯.val (t.2 : ℚ⟮ζ⟯) (z ^ t.1 + z ^ (-t.1))
        rwa [map_add, map_zpow₀, map_zpow₀, map_intCast, hgen] at this
      refine (congrArg₂ (· + ·) hterm rfl).trans ?_
      rw [e, e]
      congr 1
      push_cast
      rw [Complex.cos]
      have e1 : ((t.1 : ℤ) : ℂ) * (2 * π * Complex.I / n) = 2 * π * (t.1 / n) * Complex.I := by ring
      have e2 : -(t.1 : ℂ) * (2 * π * Complex.I / n) = -(2 * π * (t.1 / n)) * Complex.I := by ring
      rw [e1, e2]; ring
  have hb0 : b ≠ 0 := by
    rintro h; apply h0
    have : (b : ℂ) = 0 := by rw [h]; rfl
    rw [hval] at this; exact_mod_cast this
  have := norm_separation hdeg b hbint B hB hconj hb0
  rwa [hval, Complex.norm_real, Real.norm_eq_abs] at this

end Separation

section Sign

theorem turnDen_dvd {l : List (ℚ × ℚ)} {t : ℚ × ℚ} (h : t ∈ l) : t.1.den ∣ turnDen l := by
  induction l with
  | nil => simp at h
  | cons s l ih =>
    rcases List.mem_cons.1 h with rfl | h
    · exact Nat.dvd_lcm_left _ _
    · exact (ih h).trans (Nat.dvd_lcm_right _ _)

theorem coeffDen_dvd {l : List (ℚ × ℚ)} {t : ℚ × ℚ} (h : t ∈ l) : t.2.den ∣ coeffDen l := by
  induction l with
  | nil => simp at h
  | cons s l ih =>
    rcases List.mem_cons.1 h with rfl | h
    · exact Nat.dvd_lcm_left _ _
    · exact (ih h).trans (Nat.dvd_lcm_right _ _)

theorem turnDen_pos (l : List (ℚ × ℚ)) : 1 ≤ turnDen l := by
  induction l with
  | nil => simp [turnDen]
  | cons s l ih => exact Nat.lcm_pos s.1.den_pos ih

theorem coeffDen_pos (l : List (ℚ × ℚ)) : 1 ≤ coeffDen l := by
  induction l with
  | nil => simp [coeffDen]
  | cons s l ih => exact Nat.lcm_pos s.2.den_pos ih

theorem num_eq_of_den_dvd (q : ℚ) {n : ℕ} (hn : 1 ≤ n) (h : q.den ∣ n) :
    (q : ℝ) * n = ((q.num * (n / q.den : ℕ) : ℤ) : ℝ) := by
  obtain ⟨m, rfl⟩ := h
  rw [Nat.mul_div_cancel_left m q.den_pos]
  have hq : (q : ℝ) = q.num / q.den := by exact_mod_cast (Rat.num_div_den q).symm
  have hden : (q.den : ℝ) ≠ 0 := by exact_mod_cast q.den_nz
  rw [hq]; push_cast; field_simp

/-- A number is 0 or at least 1/(2·D·B^n) in absolute value. -/
theorem termsReal_separation (l : List (ℚ × ℚ)) (h0 : termsReal l ≠ 0) :
    1 ≤ conjugateBound l ∧ 1 ≤ 2 * coeffDen l * |termsReal l| * (conjugateBound l : ℝ) ^ turnDen l := by
  set n := turnDen l with hn
  set D := coeffDen l with hD
  have hn1 : 1 ≤ n := turnDen_pos l
  have hD1 : 1 ≤ D := coeffDen_pos l
  set f : ℚ × ℚ → ℤ × ℤ := fun t => (t.1.num * (n / t.1.den : ℕ), t.2.num * (D / t.2.den : ℕ)) with hf
  have hterms (l' : List (ℚ × ℚ)) (h : ∀ t ∈ l', t ∈ l) :
      ((l'.map f).map fun t => 2 * (t.2 : ℝ) * cos (2 * π * (t.1 / n))).sum = 2 * D * termsReal l' := by
    induction l' with
    | nil => simp
    | cons t l' ih =>
      have h1 := num_eq_of_den_dvd t.1 hn1 (turnDen_dvd (h t (List.mem_cons_self ..)))
      have h2 := num_eq_of_den_dvd t.2 hD1 (coeffDen_dvd (h t (List.mem_cons_self ..)))
      simp only [List.map_cons, List.sum_cons, ih fun s hs => h s (List.mem_cons_of_mem _ hs), termsReal_cons, termReal]
      simp only [hf]
      rw [← h1, ← h2, mul_div_cancel_right₀ _ (by positivity : (n : ℝ) ≠ 0)]; ring
  have hbound (l' : List (ℚ × ℚ)) :
      ((l'.map f).map fun t => 2 * |(t.2 : ℝ)|).sum
        = ((l'.foldr (fun t b => 2 * (t.2.num.natAbs * (D / t.2.den)) + b) 0 : ℕ) : ℝ) := by
    induction l' with
    | nil => simp
    | cons t l' ih =>
      have hhead : 2 * |((f t).2 : ℝ)| = ((2 * (t.2.num.natAbs * (D / t.2.den)) : ℕ) : ℝ) := by
        simp only [hf]
        rw [Int.cast_mul, Int.cast_natCast, abs_mul, Nat.abs_cast, Nat.cast_mul, Nat.cast_mul, Nat.cast_natAbs,
          Int.cast_abs, Nat.cast_ofNat]
      rw [List.map_cons, List.map_cons, List.sum_cons, ih, hhead, List.foldr_cons, Nat.cast_add]
  have hB1 : 1 ≤ conjugateBound l := by
    rcases Nat.eq_zero_or_pos (conjugateBound l) with h | h
    · exfalso
      have hb := hbound l
      rw [show (l.foldr (fun t b => 2 * (t.2.num.natAbs * (D / t.2.den)) + b) 0) = conjugateBound l from rfl, h] at hb
      apply h0
      have habs (l' : List (ℤ × ℤ)) : |(l'.map fun t => 2 * (t.2 : ℝ) * cos (2 * π * (t.1 / n))).sum|
          ≤ (l'.map fun t => 2 * |(t.2 : ℝ)|).sum := by
        induction l' with
        | nil => simp
        | cons t l' ih =>
          simp only [List.map_cons, List.sum_cons]
          refine (abs_add_le _ _).trans (add_le_add ?_ ih)
          rw [abs_mul, abs_mul, abs_two]
          exact mul_le_of_le_one_right (by positivity) (abs_cos_le_one _)
      have hz := habs (l.map f)
      rw [hb, hterms l fun t h => h, Nat.cast_zero] at hz
      have hD0 : (D : ℝ) ≠ 0 := by positivity
      simpa [hD0] using abs_nonpos_iff.1 hz
    · exact h
  refine ⟨hB1, ?_⟩
  have hB1' : (1 : ℝ) ≤ conjugateBound l := by exact_mod_cast hB1
  have key := sum_separation hn1 (l.map f) (conjugateBound l) hB1' (le_of_eq (hbound l))
    (by rw [hterms l fun t h => h]; have : (D : ℝ) ≠ 0 := by positivity
        positivity)
  rw [hterms l fun t h => h, abs_mul, abs_of_pos (by positivity : (0 : ℝ) < 2 * D)] at key
  exact key

/-- The sign of a real, as an ordering. -/
noncomputable def realSign (r : ℝ) : Ordering := if 0 < r then .gt else if r < 0 then .lt else .eq

theorem approxSlope_nonneg (n : ℕ) (l : List (ℚ × ℚ)) : 0 ≤ approxSlope n l := by
  induction l with
  | nil => simp [approxSlope]
  | cons t l ih =>
    have : approxSlope n (t :: l) = |t.2| * (harmonic n t.1 : ℚ) ^ 2 + approxSlope n l := rfl
    rw [this]; positivity

/-- A probe that separates is right, and a probe that does not bounds the number. -/
theorem probeSign_spec (l : List (ℚ × ℚ)) (t : ℕ) :
    (probeSign (turnDen l) (approxSlope (turnDen l) l) l t = realSign (termsReal l)) ∨
    (probeSign (turnDen l) (approxSlope (turnDen l) l) l t = .eq ∧
      |termsReal l| ≤ 4 * approxSlope (turnDen l) l / 2 ^ t) := by
  set n := turnDen l with hn
  set w := approxSlope n l with hw
  have hn1 : 1 ≤ n := turnDen_pos l
  obtain ⟨⟨h1, h2⟩, h3, h4⟩ := cosBracket_spec hn1 t
  set x : ℚ := ((cosBracket n t : ℤ) : ℚ) / (2 ^ t : ℕ) with hx
  have hp : (0 : ℝ) < 2 ^ t := by positivity
  have hxR : (x : ℝ) = (cosBracket n t : ℝ) / 2 ^ t := by rw [hx]; push_cast; ring
  have h1' : -(2 ^ t : ℝ) ≤ cosBracket n t := by exact_mod_cast h1
  have h2' : (cosBracket n t : ℝ) + 2 ≤ 2 ^ t := by exact_mod_cast h2
  have hx1 : -1 ≤ (x : ℝ) := by rw [hxR, le_div_iff₀ hp]; linarith
  have hx2 : (x : ℝ) ≤ 1 := by rw [hxR, div_le_iff₀ hp]; linarith
  have herr := approxAt_error hn1 hx1 hx2 l fun t ht => turnDen_dvd ht
  have hdist : |(x : ℝ) - cos (π / n)| ≤ 2 / 2 ^ t := by
    rw [abs_le, hxR]; constructor
    · have : ((cosBracket n t : ℝ) + 2) / 2 ^ t = cosBracket n t / 2 ^ t + 2 / 2 ^ t := by ring
      linarith
    · have : (0 : ℝ) ≤ 2 / 2 ^ t := by positivity
      linarith
  have hw0 : (0 : ℝ) ≤ w := by exact_mod_cast approxSlope_nonneg n l
  set e : ℚ := w * 2 / (2 ^ t : ℕ) with he
  have heR : (e : ℝ) = w * (2 / 2 ^ t) := by rw [he]; push_cast; ring
  set a : ℚ := approxAt n x l with ha
  have hae : |(a : ℝ) - termsReal l| ≤ e := herr.trans (by rw [heR]; gcongr)
  have hprobe : probeSign n w l t = if e < a then .gt else if a < -e then .lt else .eq := rfl
  rw [hprobe]
  obtain ⟨hlo, hhi⟩ := abs_le.1 hae
  split_ifs with c1 c2
  · left
    have : (e : ℝ) < a := by exact_mod_cast c1
    rw [realSign, if_pos (by linarith)]
  · left
    have : (a : ℝ) < -e := by exact_mod_cast c2
    rw [realSign, if_neg (by linarith), if_pos (by linarith)]
  · right
    refine ⟨rfl, ?_⟩
    have c1' : (a : ℝ) ≤ e := by exact_mod_cast not_lt.1 c1
    have c2' : -(e : ℝ) ≤ a := by exact_mod_cast not_lt.1 c2
    have : 4 * (w : ℝ) / 2 ^ t = 2 * e := by rw [heR]; ring
    rw [this, abs_le]; constructor <;> linarith

/-- Enough halvings that do not separate a number from 0 prove it 0. -/
theorem termsReal_eq_zero_of_probe (l : List (ℚ × ℚ)) (t : ℕ) (ht : enoughBits (turnDen l) l ≤ t)
    (h : |termsReal l| ≤ 4 * approxSlope (turnDen l) l / 2 ^ t) : termsReal l = 0 := by
  by_contra h0
  obtain ⟨hB, hsep⟩ := termsReal_separation l h0
  set n := turnDen l with hn
  set w := approxSlope n l with hw
  set D := coeffDen l
  set B := conjugateBound l
  have hw0 : (0 : ℚ) ≤ w := approxSlope_nonneg n l
  have hceil : (w : ℝ) ≤ (⌈w⌉.natAbs : ℕ) := by
    have h1 : (w : ℚ) ≤ (⌈w⌉ : ℤ) := Int.le_ceil w
    have h2 : (0 : ℤ) ≤ ⌈w⌉ := Int.ceil_nonneg hw0
    have h4 : ((⌈w⌉.natAbs : ℕ) : ℤ) = ⌈w⌉ := Int.natAbs_of_nonneg h2
    have h5 : ((⌈w⌉.natAbs : ℕ) : ℝ) = ((⌈w⌉ : ℤ) : ℝ) := by rw [← Int.cast_natCast, h4]
    rw [h5]; exact_mod_cast h1
  have hlog : 8 * D * ⌈w⌉.natAbs * B ^ n + 1 < 2 ^ t := by
    refine lt_of_lt_of_le ?_ (Nat.pow_le_pow_right (by norm_num) ht)
    exact Nat.lt_log2_self
  have hlogR : 8 * (D : ℝ) * (⌈w⌉.natAbs : ℕ) * (B : ℝ) ^ n < 2 ^ t := by
    have : ((8 * D * ⌈w⌉.natAbs * B ^ n + 1 : ℕ) : ℝ) < ((2 ^ t : ℕ) : ℝ) := by exact_mod_cast hlog
    push_cast at this ⊢; linarith
  have hp : (0 : ℝ) < 2 ^ t := by positivity
  have hD : (0 : ℝ) ≤ D := by positivity
  have hBn : (0 : ℝ) ≤ (B : ℝ) ^ n := by positivity
  rw [le_div_iff₀ hp] at h
  have h1 : 2 * (D : ℝ) * (|termsReal l| * 2 ^ t) * (B : ℝ) ^ n ≤ 2 * D * (4 * w) * (B : ℝ) ^ n := by gcongr
  have h2 : 2 * (D : ℝ) * (4 * w) * (B : ℝ) ^ n ≤ 8 * D * (⌈w⌉.natAbs : ℕ) * (B : ℝ) ^ n := by
    have := mul_le_mul_of_nonneg_right (mul_le_mul_of_nonneg_left hceil hD) hBn
    nlinarith [this]
  have h3 : (1 : ℝ) * 2 ^ t ≤ 2 * D * |termsReal l| * (B : ℝ) ^ n * 2 ^ t := mul_le_mul_of_nonneg_right hsep hp.le
  nlinarith

theorem signLoop_eq (l : List (ℚ × ℚ)) (f t : ℕ) (ht : 1 ≤ t) (hf : enoughBits (turnDen l) l ≤ t + f) :
    signLoop (turnDen l) (approxSlope (turnDen l) l) l (enoughBits (turnDen l) l) f t = realSign (termsReal l) := by
  have done (t : ℕ) (h : enoughBits (turnDen l) l ≤ t)
      (hp : |termsReal l| ≤ 4 * approxSlope (turnDen l) l / 2 ^ t) : realSign (termsReal l) = .eq := by
    simp [realSign, termsReal_eq_zero_of_probe l t h hp]
  induction f generalizing t with
  | zero =>
    rcases probeSign_spec l t with h | ⟨h, hb⟩
    · exact h
    · rw [signLoop, h, done t (by simpa using hf) hb]
  | succ f ih =>
    rw [signLoop]
    rcases probeSign_spec l t with h | ⟨h, hb⟩
    · rw [h]
      split
      · rename_i heq
        split
        · exact heq.symm
        · exact ih (2 * t) (by omega) (by omega)
      · rfl
    · rw [h]
      simp only
      split
      · rename_i hle; exact (done t hle hb).symm
      · exact ih (2 * t) (by omega) (by omega)

/-- The sign answered is the sign of the real number. -/
theorem Sample.sign_eq (x : Sample) : x.sign = realSign x.toReal :=
  signLoop_eq x.terms _ 8 (by norm_num) (by omega)

/-- The order of the numbers is the order of the reals they are. -/
theorem Sample.lt_iff (x y : Sample) : x.lt y = true ↔ x.toReal < y.toReal := by
  rw [Sample.lt, beq_iff_eq, Sample.sign_eq, Sample.sub_toReal, realSign]
  split_ifs with h1 h2 <;> simp <;> linarith

theorem Sample.same_iff (x y : Sample) : x.same y = true ↔ x.toReal = y.toReal := by
  rw [Sample.same, beq_iff_eq, Sample.sign_eq, Sample.sub_toReal, realSign]
  split_ifs with h1 h2 <;> simp <;> linarith

theorem Sample.lt_eq_decide (x y : Sample) : x.lt y = decide (x.toReal < y.toReal) := by
  rw [Bool.eq_iff_iff, Sample.lt_iff, decide_eq_true_iff]

theorem Sample.isPos_iff (x : Sample) : x.isPos = true ↔ 0 < x.toReal := by
  rw [Sample.isPos, Sample.lt_iff, Sample.zero_toReal]

theorem Sample.isNeg_iff (x : Sample) : x.isNeg = true ↔ x.toReal < 0 := by
  rw [Sample.isNeg, Sample.lt_iff, Sample.zero_toReal]

@[simp] theorem Sample.abs_toReal (x : Sample) : x.abs.toReal = |x.toReal| := by
  rw [Sample.abs]
  split <;> rename_i h <;> rw [Sample.isNeg_iff] at h
  · rw [Sample.neg_toReal, abs_of_neg h]
  · rw [abs_of_nonneg (not_lt.mp h)]

@[simp] theorem Sample.posPart_toReal (x : Sample) : x.posPart.toReal = max x.toReal 0 := by
  rw [Sample.posPart]
  split <;> rename_i h <;> rw [Sample.isPos_iff] at h
  · rw [max_eq_left h.le]
  · rw [max_eq_right (not_lt.mp h), Sample.zero_toReal]

@[simp] theorem Sample.mean_toReal (l : List Sample) : (Sample.mean l).toReal = (l.map Sample.toReal).sum / l.length := by
  simp [Sample.mean]; ring

end Sign

end Sys2Proof.Machine
end

