-- ==== Sys2Proof/Tests/Slice0.lean ====
section
/-! SUPPORT. The model's own tests: the checks of WellFormed refuse ill-formed terms, every command byte of R62 decodes,
vectors of spec/95_test_vectors.md (one step each), and a witness for the hypotheses of each statement. -/

set_option Elab.async false

namespace Sys2Proof.Tests

open Sys2Proof.Machine Sys2Proof.Pseudocode

/-- A rational as a sample. -/
def q (x : ℚ) : Sample := Sample.ofRat x

/-- A point of the test's 16-QAM grid. -/
def point (x y : ℚ) : SymEntry := ⟨q x, q y⟩

/-- The illustrative build of R212, R325; its 8PSK and 16-QAM tables are the test's own. -/
def build : Params where
  flag := 0x7E#8
  esc := 0x7D#8
  samples := 8
  lineAmp := q 5
  carrierAmp := q 1
  carrierFreq := 1
  askThreshold := q (3 / 10)
  bpskTab := [.polar 1 0, .polar 1 180]
  qpskTab := [.polar 1 45, .polar 1 135, .polar 1 315, .polar 1 225]
  psk8Tab := [.polar 1 0, .polar 1 45, .polar 1 135, .polar 1 90, .polar 1 315, .polar 1 270, .polar 1 180,
      .polar 1 225]
  qam16Tab := (List.range 16).map fun g => point ([-3, -1, 3, 1].getD (g / 4) 0) ([-3, -1, 3, 1].getD (g % 4) 0)
  bridgeThreshold := q (5 / 4)
  lpfAlign := .centred
  propDelay := q 0

/-- The reset state on a build. -/
def start (p : Params) : State := { State.reset with params := p }

/-- The build with another S. -/
def buildS (n : Nat) : Params := { build with samples := n }

def withBits (p : Params) (b : List Nat) : State := { start p with inBits := bits b }
def withSig (p : Params) (x : List ℚ) : State := { start p with inSig := x.map Sample.ofRat }
def withSamples (x : List Sample) : State := { start build with inSig := x }
def withText (t : Text) : State := { start build with inText := t }

/-- Bytes as bits. -/
def bytes (l : List Nat) : BitSeq := l.flatMap (beBits 8)

/-- IN as bytes and then bits. -/
def withBytes (l t : List Nat) : State := { start build with inBits := bytes l ++ bits t }

/-- The state after an operation, the same state where it does not run. -/
def after (i : Instr) (s : State) : State :=
  match exec i s with
  | .next t => t
  | _ => s

/-- The state after a step, none where it stops. -/
def stepped (s : State) : Option State := steps 1 s

/-- Sample lists that are the same reals. -/
def sameSig : List Sample → List Sample → Bool
  | [], [] => true
  | x :: l, y :: m => x.same y && sameSig l m
  | _, _ => false

/-- OUT holds a signal of the given reals. -/
def outIs (s : State) (x : List Sample) : Bool :=
  match s.out with
  | .samples y => sameSig x y
  | _ => false

/-- sin 45 degrees. -/
def r : Sample := Sample.sinTurns (1 / 8)

/-- One period of the sine at F_C = 1, S = 8, times a rational. -/
def sine (a : ℚ) : List Sample := [q 0, r, q 1, r, q 0, r.neg, q (-1), r.neg].map (Sample.scale a)

/-! ## WellFormed refuses ill-formed terms -/

theorem test_wf_unit : CmdFields.unitOk ⟨7, 0, 0⟩ = false := rfl
theorem test_wf_scheme : CmdFields.schemeOk ⟨0, 3, 0⟩ = false := rfl
theorem test_wf_fn : CmdFields.fnOk ⟨1, 0, 3⟩ = false := rfl
theorem test_wf_strip : CmdFields.stripOk ⟨1, 4, 2⟩ = false := rfl
theorem test_wf_inverse : CmdFields.inverseOk ⟨5, 0, 1⟩ = false := rfl
theorem test_wf_instr : Instr.wf .ecCrcStrip = true := rfl
theorem test_wf_sigma : PipeCfg.wf build { PipeCfg.atReset with sigma := q (-1) } = false := by decide +kernel
theorem test_wf_manchester : PipeCfg.wf (buildS 5) { PipeCfg.atReset with line := .manchester } = false := by
  decide +kernel
theorem test_wf_bytes : Params.bytesOk { build with esc := 0x7E#8 } = false := by decide +kernel
theorem test_wf_samples : (buildS 0).samplesOk = false := by decide +kernel
theorem test_wf_even : (buildS 5).manchesterOk = false := by decide +kernel
theorem test_wf_carrier : (buildS 4).carrierOk = false := by decide +kernel
theorem test_wf_amps : Params.ampsOk { build with carrierAmp := q 0 } = false := by decide +kernel
theorem test_wf_bridge : Params.bridgeOk { build with bridgeThreshold := q (5 / 2) } = false := by decide +kernel
theorem test_wf_ask : Params.askOk { build with askThreshold := q (7 / 10) } = false := by decide +kernel
theorem test_wf_table_size : SymTab.wf 1 [.polar 1 0] = false := by decide +kernel
theorem test_wf_table_points : SymTab.wf 1 [.polar 1 45, .polar 1 405] = false := by decide +kernel
theorem test_wf_build : build.wf = true := by decide +kernel

/-! ## Decoding: every byte of R62's table, and bytes that R64 reserves -/

theorem test_decode_frm :
    [decode 0x00#8, decode 0x01#8, decode 0x04#8, decode 0x05#8, decode 0x08#8, decode 0x09#8] =
    [.ok .frmCcEnc, .ok .frmCcDec, .ok .frmBsEnc, .ok .frmBsDec, .ok .frmBitEnc, .ok .frmBitDec] := by decide +kernel
theorem test_decode_ec :
    [decode 0x20#8, decode 0x21#8, decode 0x22#8, decode 0x24#8, decode 0x25#8, decode 0x26#8, decode 0x28#8,
      decode 0x29#8, decode 0x2A#8, decode 0x2C#8, decode 0x2D#8, decode 0x2E#8, decode 0x30#8, decode 0x31#8] =
    [.ok .ecNoneEnc, .ok .ecNoneChk, .ok .ecNoneStrip, .ok .ecParEnc, .ok .ecParChk, .ok .ecParStrip, .ok .ecSumEnc,
      .ok .ecSumChk, .ok .ecSumStrip, .ok .ecCrcEnc, .ok .ecCrcChk, .ok .ecCrcStrip, .ok .ecHamEnc,
      .ok .ecHamDec] := by decide +kernel
theorem test_decode_lc :
    [decode 0x40#8, decode 0x41#8, decode 0x44#8, decode 0x45#8, decode 0x48#8, decode 0x49#8] =
    [.ok .lcNrzEnc, .ok .lcNrzDec, .ok .lcManEnc, .ok .lcManDec, .ok .lcAmiEnc, .ok .lcAmiDec] := by decide +kernel
theorem test_decode_cm :
    [decode 0x60#8, decode 0x61#8, decode 0x64#8, decode 0x65#8, decode 0x68#8, decode 0x69#8, decode 0x6C#8,
      decode 0x6D#8, decode 0x70#8, decode 0x71#8, decode 0x74#8, decode 0x75#8] =
    [.ok .cmAskMod, .ok .cmAskDem, .ok .cmFskMod, .ok .cmFskDem, .ok .cmBpskMod, .ok .cmBpskDem, .ok .cmQpskMod,
      .ok .cmQpskDem, .ok .cm8pskMod, .ok .cm8pskDem, .ok .cmQam16Mod, .ok .cmQam16Dem] := by decide +kernel
theorem test_decode_ab :
    [decode 0x80#8, decode 0x81#8, decode 0x84#8, decode 0x85#8, decode 0x88#8, decode 0x89#8, decode 0x8C#8,
      decode 0x8D#8, decode 0x90#8, decode 0x91#8, decode 0x94#8, decode 0x95#8] =
    [.ok .abAskFwd, .ok .abAskRev, .ok .abFskFwd, .ok .abFskRev, .ok .abBpskFwd, .ok .abBpskRev, .ok .abQpskFwd,
      .ok .abQpskRev, .ok .ab8pskFwd, .ok .ab8pskRev, .ok .abQam16Fwd, .ok .abQam16Rev] := by decide +kernel
theorem test_decode_ch :
    [decode 0xA0#8] =
    [.ok .chNoise] := by decide +kernel
theorem test_decode_pl :
    [decode 0xC0#8, decode 0xC1#8, decode 0xC4#8, decode 0xC8#8, decode 0xCC#8] =
    [.ok .txtEnc, .ok .txtDec, .ok .plConfigure, .ok .plTransmit, .ok .plInspect] := by decide +kernel
theorem test_decode_bits : decode (BitVec.ofNat 8 (1 * 2 ^ 5 + 3 * 2 ^ 2 + 2)) = .ok .ecCrcStrip := by decide +kernel
theorem test_decode_reserved :
    [decode 0x02#8, decode 0x03#8, decode 0x0C#8, decode 0x32#8, decode 0x34#8, decode 0x4C#8, decode 0x78#8,
      decode 0xA1#8, decode 0xC5#8, decode 0xE0#8] =
    [.error .strip, .error .function, .error .scheme, .error .strip, .error .scheme, .error .scheme, .error .scheme,
      .error .inverse, .error .inverse, .error .unit] := by decide +kernel
theorem test_table_word : decodeTableWord 8 0x45 = some .lcManDec ∧ decodeTableWord 8 0x46 = none := by decide +kernel
theorem test_fetch_word : stepped ((withBits build [1, 0, 1]).withFetchWord 8 0x00) =
    some (after .frmCcEnc (withBits build [1, 0, 1])) := by decide +kernel

/-! ## Vectors of spec/95_test_vectors.md, one step each -/

-- section 2
theorem test_cc_enc : (after .frmCcEnc (withBits build [1, 0, 1])).out = .bits (bytes [2] ++ bits [1, 0, 1]) := by
  decide +kernel
theorem test_cc_dec : (after .frmCcDec (withBytes [3, 0x55] [])).out = .bits (bytes [0x55]) := by
  decide +kernel
theorem test_bs_enc : (after .frmBsEnc (withBytes [0x41, 0x7E, 0x7D, 0x42] [])).out =
    .bits (bytes [0x7E, 0x41, 0x7D, 0x7E, 0x7D, 0x7D, 0x42, 0x7E]) := by decide +kernel
theorem test_bs_enc_pads : (after .frmBsEnc (withBits build [1, 0, 1])).out = .bits (bytes [0x7E, 0xA0, 0x7E]) := by
  decide +kernel
theorem test_bs_dec : (after .frmBsDec (withBytes [0x7E, 0x41, 0x7D, 0x7E] [])).out =
    .bits (bytes [0x41]) := by decide +kernel
theorem test_bs_dec_warns :
    let t := after .frmBsDec (withBytes [0x7E, 0x41, 0x7E] [1, 0, 1])
    t.out = .bits (bytes [0x41]) ∧ t.warn = true := by decide +kernel
-- V2
theorem test_bit_enc :
    (after .frmBitEnc
      (withBits build [0, 1, 1, 1, 1, 1, 0, 0, 1, 1, 1, 1, 1, 1, 1, 0, 0, 1, 0, 0, 0, 0, 0, 0])).out =
    .bits (bits ([0, 1, 1, 1, 1, 1, 1, 0] ++
      [0, 1, 1, 1, 1, 1, 0, 0, 0, 1, 1, 1, 1, 1, 0, 1, 1, 0, 0, 1, 0, 0, 0, 0, 0, 0] ++
      [0, 1, 1, 1, 1, 1, 1, 0])) := by decide +kernel
theorem test_bit_dec_six :
    (after .frmBitDec (withBits build ([0, 1, 1, 1, 1, 1, 1, 0] ++ [1, 1, 1, 1, 1, 1, 0] ++ [0, 1, 1, 1, 1, 1, 1,
      0]))).out =
    .bits (bits [1, 1, 1, 1, 1, 1, 0]) := by decide +kernel
theorem test_bit_dec_removes :
    (after .frmBitDec (withBits build ([0, 1, 1, 1, 1, 1, 1, 0] ++ [1, 1, 1, 1, 1, 0, 0] ++ [0, 1, 1, 1, 1, 1, 1,
      0]))).out =
    .bits (bits [1, 1, 1, 1, 1, 0]) := by decide +kernel
-- section 3
theorem test_none_chk : let t := after .ecNoneChk (withBits build [1]); t.ok = true ∧ t.out = .bits [true] := by
  decide +kernel
theorem test_par_enc : (after .ecParEnc (withBits build [1, 0, 1, 1])).out = .bits (bits [1, 0, 1, 1, 1]) := by
  decide +kernel
theorem test_par_chk : (after .ecParChk (withBits build [])).ok = true ∧
    (after .ecParChk (withBits build [0, 1, 0, 1, 0, 1, 0, 1, 1])).ok = false := by decide +kernel
theorem test_par_strip : (after .ecParStrip (withBits build [1, 0, 1, 1, 1])).out = .bits (bits [1, 0, 1, 1]) := by
  decide +kernel
theorem test_sum_enc : (after .ecSumEnc (withBytes [0x41, 0x62] [])).out =
    .bits (bytes [0x41, 0x62, 0xBE, 0x9D]) := by decide +kernel
theorem test_sum_enc_carry : (after .ecSumEnc (withBytes [0xFF, 0xFF, 0, 1] [])).out =
    .bits (bytes [0xFF, 0xFF, 0, 1, 0xFF, 0xFE]) := by decide +kernel
theorem test_sum_chk : (after .ecSumChk (withBytes [0x41, 0x62, 0xBE, 0x9D] [])).ok = true ∧
    (after .ecSumChk (withBytes [0x62, 0x41, 0xBE, 0x9D] [])).ok = false := by decide +kernel
theorem test_sum_strip : (after .ecSumStrip (withBytes [0x41, 0x62, 0xBE, 0x9D] [])).out =
    .bits (bytes [0x41, 0x62]) := by decide +kernel
theorem test_crc_enc : (after .ecCrcEnc (withBytes [0x31, 0x32, 0x33, 0x34, 0x35, 0x36, 0x37, 0x38, 0x39] [])).out =
    .bits (bytes [0x31, 0x32, 0x33, 0x34, 0x35, 0x36, 0x37, 0x38, 0x39, 0x89, 0xA1, 0x89, 0x7F]) := by decide +kernel
theorem test_crc_enc_one : (after .ecCrcEnc (withBits build [1])).out = .bits (bits [1] ++ bytes [0x04, 0xC1, 0x1D,
      0xB7]) := by
  decide +kernel
theorem test_crc_chk : (after .ecCrcChk (withBytes [0x41, 0x30, 0x47, 0x6D, 0xC0] [0])).ok = true ∧
    (after .ecCrcChk (withBytes [0x41, 0x30, 0x47, 0x6D, 0xC0] [1])).ok = false := by
  decide +kernel
theorem test_crc_strip : (after .ecCrcStrip (withBytes [0x55, 0x6F, 0x52, 0xC0, 0x6C] [])).out =
    .bits (bytes [0x55]) := by decide +kernel
-- V3
theorem test_ham_enc : (after .ecHamEnc (withBits build [1, 0, 1, 1, 0, 0, 1, 1])).out =
    .bits (bits [1, 0, 1, 1, 0, 1, 1, 0, 0, 0, 1, 1]) := by decide +kernel
theorem test_ham_dec :
    let t := after .ecHamDec (withBits build [1, 0, 1, 1, 0, 1, 0, 0, 0, 0, 1, 1])
    t.out = .bits (bits [1, 0, 1, 1, 0, 0, 1, 1]) ∧ t.corrected = true := by decide +kernel
theorem test_ham_dec_double :
    let t := after .ecHamDec (withBits build [1, 0, 1, 1, 1, 1, 1, 1, 0, 0, 1, 1])
    t.out = .bits (bits [1, 1, 1, 1, 0, 0, 1, 1]) ∧ t.corrected = false := by decide +kernel
-- section 4
theorem test_nrz_enc : outIs (after .lcNrzEnc (withBits (buildS 4) [1, 0]))
    ([5, 5, 5, 5, -5, -5, -5, -5].map q) = true := by decide +kernel
theorem test_nrz_dec :
    let t := after .lcNrzDec (withSig (buildS 4) [1 / 10, 0, 0, 0, 3, 3])
    t.out = .bits [true] ∧ t.warn = true := by decide +kernel
theorem test_nrz_dec_tie : (after .lcNrzDec (withSig (buildS 4) [1, -1, 1,
      -1])).out = .bits [false] := by decide +kernel
theorem test_man_enc : outIs (after .lcManEnc (withBits (buildS 4) [1, 0]))
    ([5, 5, -5, -5, -5, -5, 5, 5].map q) = true := by decide +kernel
theorem test_man_dec : (after .lcManDec (withSig (buildS 4) [5, 5, -5, -5, 2, 2, 2, 2])).out = .bits [true, false] := by
  decide +kernel
theorem test_ami_enc : outIs (after .lcAmiEnc (withBits (buildS 2) [1, 0, 1, 1]))
    ([5, 5, 0, 0, -5, -5, 5, 5].map q) = true := by decide +kernel
theorem test_ami_dec :
    (after .lcAmiDec (withSig (buildS 2) [5, 5, 0, 0, -5, -5, 5 / 2, 5 / 2, 13 / 5, 13 / 5])).out =
    .bits (bits [1, 0, 1, 0, 1]) := by decide +kernel
-- section 5
theorem test_ask_mod : outIs (after .cmAskMod (withBits build [1, 0])) (sine 1 ++ List.replicate 8 (q 0)) = true := by
  decide +kernel
theorem test_ask_dem : (after .cmAskDem (withSamples (sine 1 ++ List.replicate 8 (q 0)))).out =
    .bits [true, false] := by decide +kernel
theorem test_fsk_mod : outIs (after .cmFskMod (withBits build [0, 1])) (sine 1 ++ [0, 1, 0, -1, 0, 1, 0,
      -1].map q) = true := by
  decide +kernel
theorem test_fsk_dem : (after .cmFskDem (withSamples (sine 1 ++ [0, 1, 0, -1, 0, 1, 0, -1].map q))).out =
    .bits [false, true] := by decide +kernel
theorem test_bpsk_mod : outIs (after .cmBpskMod (withBits build [0])) [q 1, r, q 0, r.neg, q (-1), r.neg, q 0,
      r] = true := by
  decide +kernel
theorem test_bpsk_dem :
    (after .cmBpskDem (withSamples ([q (-1), r.neg, q 0, r, q 1, r, q 0, r.neg] ++ List.replicate 8 (q 0)))).out =
    .bits [true, false] := by decide +kernel
theorem test_qpsk_mod : outIs (after .cmQpskMod (withBits build [0, 0, 1, 1]))
    [r, q 0, r.neg, q (-1), r.neg, q 0, r, q 1, r.neg, q 0, r, q 1, r, q 0, r.neg, q (-1)] = true := by decide +kernel
theorem test_qpsk_dem :
    (after .cmQpskDem (withSamples ([r.neg, q 0, r, q 1, r, q 0, r.neg, q (-1)]))).out = .bits [true, true] := by
  decide +kernel
theorem test_8psk_mod : -- R207: 8 bits make 3 symbols, the last from b6 b7 0
    (match (after .cm8pskMod (withBits build [0, 0, 0, 0, 0, 0, 0,
      0])).out with | .samples x => x.length | _ => 0) = 24 := by
  decide +kernel
theorem test_8psk_dem : -- R208: the entry 011 of the test's table is (1, 90 degrees), the wave −sin
    (after .cm8pskDem (withSamples (sine (-1)))).out = .bits [false, true, true] := by decide +kernel
theorem test_qam16_mod : -- R199: the entry 1000 of the test's table is the point (3, −3): 3·cos + 3·sin
    outIs (after .cmQam16Mod (withBits build [1]))
      ([q 1, r.scale 2, q 1, q 0, q (-1), r.scale (-2), q (-1), q 0].map (Sample.scale 3)) = true := by
  decide +kernel
theorem test_qam16_dem : -- R210: the decision depends on the amplitude
    (after .cmQam16Dem (withSamples ([q 1, r.scale 2, q 1, q 0, q (-1), r.scale (-2), q (-1),
      q 0].map (Sample.scale (13 / 5))))).out =
    .bits [true, false, false, false] := by decide +kernel
-- section 6
/-- LC.NRZ.ENC 10 as the bridge's input, on a configured block. -/
def bridgeIn : State :=
  { withSig build [5, 5, 5, 5, 5, 5, 5, 5, -5, -5, -5, -5, -5, -5, -5, -5] with cfgValid := true }
theorem test_ab_ask_fwd : outIs (after .abAskFwd bridgeIn) (sine 5 ++ List.replicate 8 (q 0)) = true := by decide +kernel
theorem test_ab_ask_rev : outIs (after .abAskRev { bridgeIn with inSig := sine 5 ++ List.replicate 8 (q 0) })
    ([1, 1, 1, 1, 1, 1, 1, 1, -1, -1, -1, -1, -1, -1, -1, -1].map q) = true := by decide +kernel
theorem test_ab_bpsk_fwd : outIs (after .abBpskFwd bridgeIn) (sine 5 ++ sine (-5)) = true := by decide +kernel
theorem test_ab_bpsk_rev : outIs (after .abBpskRev { bridgeIn with inSig := sine 5 ++ sine (-5) })
    ([15 / 8, 5 / 2, 5 / 2, 5 / 2, 5 / 2, 5 / 2, 5 / 2, 5 / 4, -5 / 4, -5 / 2, -5 / 2, -5 / 2, -5 / 2, -5 / 2, -5 / 2,
      -15 / 8].map q) = true := by decide +kernel
theorem test_ab_fsk_fwd : outIs (after .abFskFwd bridgeIn) ([0, 1, 0, -1, 0, 1, 0, -1].map q ++ sine 1) = true := by
  decide +kernel
theorem test_ab_fsk_rev : outIs (after .abFskRev { bridgeIn with inSig := [0, 1, 0, -1, 0, 1, 0, -1].map q ++ sine 1 })
    ([5, 5, 5, 5, 5, 5, 5, 5, -5, -5, -5, -5, -5, -5, -5, -5].map q) = true := by decide +kernel
theorem test_ab_not_configured : (after .abQpskFwd { bridgeIn with cfgValid := false }).result =
    .fault ⟨.notConfigured, .none⟩ := by decide +kernel
theorem test_noise : outIs (after .chNoise
      { withSig build [1, 2, 3] with inSigma := .real (q 2), noise := [1 / 2, -4, 0].map q }) ([3 / 2, -2,
      3].map q) = true := by
  decide +kernel
theorem test_noise_negative : outIs (after .chNoise { withSig build [1, 2, 3] with inSigma := .real (q (-1)) })
    ([1, 2, 3].map q) = true := by decide +kernel
-- section 7
theorem test_txt_enc : (after .txtEnc (withText [0x7E, 233])).out = .bits (bytes [0x7E, 0xE9]) := by decide +kernel
theorem test_txt_enc_wide : (after .txtEnc (withText [65, 8364, 300])).result = .fault ⟨.invalidChar, .char 1⟩ := by
  decide +kernel
theorem test_txt_dec :
    let t := after .txtDec (withBytes [0x41] [0, 1, 1])
    t.out = .text [65] ∧ t.warn = true := by decide +kernel
-- section 8: configuration words
theorem test_cfg_words :
    (after .plConfigure { start build with inCfgw := 0x04AC#16 }).cfg = ⟨.nrz, some .qpsk, true, .bitStuffing,
      .hamming, .zero⟩ ∧
    (after .plConfigure { start build with inCfgw := 0x0362#16 }).cfg = ⟨.bipolar, some .ask, true, .byteStuffing,
      .crc, .zero⟩ := by
  decide +kernel
theorem test_cfg_bad :
    (after .plConfigure { start build with inCfgw := 0x001B#16 }).result = .fault ⟨.invalidConfig, .field .line⟩ ∧
    (after .plConfigure { start build with inCfgw := 0x0819#16 }).result = .fault ⟨.invalidConfig,
      .field .reserved⟩ := by
  decide +kernel

/-- The configuration of P1. -/
def cfgP1 : PipeCfg := ⟨.manchester, none, false, .characterCount, .none, .zero⟩
/-- The configuration of P5. -/
def cfgP5 : PipeCfg := ⟨.nrz, none, false, .characterCount, .checksum, q 1⟩
/-- P5 with a QPSK carrier on. -/
def cfgOn : PipeCfg := { cfgP5 with carrier := some .qpsk, carrierEn := true }
/-- A configured idle block with a text. -/
def ready : State := { start build with cfg := cfgP1, cfgValid := true, inText := [85] }
/-- A run at a stage. -/
def inRun (c : PipeCfg) (p : PState) (f : Flight) : State :=
  { start build with cfg := c, cfgValid := true, snap := c, pstate := p, flight := some f }

-- P4
theorem test_transmit : let t := after .plTransmit ready; t.flight = some (.t1 [85]) ∧ t.pstate = .transmitting := by
  decide +kernel
theorem test_transmit_busy :
    (after .plTransmit { ready with pstate := .receiving }).result = .fault ⟨.busy,
      .pstate .receiving⟩ := by decide +kernel
theorem test_inspect : (after .plInspect { ready with sigRx := [q 3], inIndex := 2 }).out = .samples [q 3] ∧
    (after .plInspect { ready with inIndex := 4 }).result = .fault ⟨.invalidCommand, .index 4⟩ := by decide +kernel
-- R229 in a run: the carrier stage runs the bridge of SNAP
theorem test_stage_t5 :
    (match (stepped (inRun { cfgP5 with carrier := some .fsk, carrierEn := true } .transmitting
        (.t5 (List.replicate 8 (q 5))))).bind (·.flight) with
      | some (.t6 _ s1) => sameSig s1 ([0, 1, 0, -1, 0, 1, 0, -1].map q)
      | _ => false) = true := by decide +kernel
-- P5
theorem test_stage_t6 :
    (stepped { inRun cfgP5 .transmitting (.t6 [q 5, q 5] [q 5, q 5]) with noise := [q (-12), q 0] }).map
      (fun t => (t.flight, t.pstate)) =
    some (some (.r1 [q 5, q 5] [q 5, q 5] [q (-7), q 5]), .receiving) := by decide +kernel
theorem test_stage_r4 :
    (stepped (inRun cfgP5 .receiving (.r4 [] [] [] [] (bytes [0x40, 0xBE, 0xFF])))).map (fun t => (t.flight, t.ok)) =
    some (some (.r5 [] [] [] [] (bytes [0x40]) .checksumError), false) := by decide +kernel
theorem test_stage_r6 :
    (stepped (inRun cfgP5 .receiving (.r6 [] [] [] [] [64] .checksumError))).map (fun t => (t.event, t.pstate,
      t.rtext)) =
    some (some (.done [64] .checksumError), .idle, [64]) := by decide +kernel
theorem test_status_read :
    (stepped { start build with hostActs := [.readStatus] }).map (·.result) = some .noStatus ∧
    (stepped { start build with hostActs := [.readStatus], status := some .crcError }).map (·.result) =
      some (.status .crcError) := by decide +kernel

/-! ## Witnesses: states and operands that meet the hypotheses of the statements -/

theorem q_pos {x : ℚ} (h : 0 < x) : 0 < (q x).toReal := by
  rw [q, Sample.ofRat_toReal]; exact_mod_cast h
theorem lineAmp_pos : 0 < build.lineAmp.toReal := q_pos (by norm_num)
theorem carrierAmp_pos : 0 < build.carrierAmp.toReal := q_pos (by norm_num)

theorem charsOk_ready : charsOk ready.inText := by
  intro c h
  cases List.mem_singleton.mp h
  decide

/-- A script whose next action is a command. -/
def asked (s : State) (c : CmdWord) : State := { s with hostActs := [.command c] }

theorem witness_ReservedCommandsRefused :
    (∀ c ∈ [0xE0#8, 0x03#8, 0x2F#8, 0x32#8, 0xA1#8, 0xCD#8, 0x0C#8, 0xD0#8], ∀ i, decode c ≠ .ok i) ∧
    (asked ready 0x32#8).hostActs = .command 0x32#8 :: [] := by
  refine ⟨?_, rfl⟩
  simp only [List.mem_cons, List.not_mem_nil, or_false]
  rintro c (rfl | rfl | rfl | rfl | rfl | rfl | rfl | rfl) i h <;> cases h
theorem witness_StepRunsDecodedCommand :
    decode 0xC8#8 = .ok .plTransmit ∧ (asked ready 0xC8#8).hostActs = .command 0xC8#8 :: [] ∧
    decode (BitVec.ofNat 8 (0xCC % 2 ^ 8)) = .ok .plInspect := by decide +kernel
theorem witness_FrmCcEncResult :
    ({ ready with inBits := List.replicate 2032 true }.inBits.length + 7) / 8 + 1 ≤ 255 ∧
    255 < ({ ready with inBits := List.replicate 2033 true }.inBits.length + 7) / 8 + 1 := by decide +kernel
theorem witness_FrmBsResults : ready.params.flag ≠ ready.params.esc := by decide +kernel
theorem witness_CharacterCountRoundTrip : { ready with inBits := List.replicate 2032 true }.inBits.length ≤ 2032 := by decide +kernel
theorem witness_ByteStuffingRoundTrip : ready.params.flag ≠ ready.params.esc := by decide +kernel
theorem witness_EmptyPayloadRoundTrips : ready.inBits = [] ∧ ready.params.flag ≠ ready.params.esc := by decide +kernel
theorem witness_CodeWordsVerifyAndStrip : (Instr.ecCrcEnc, Instr.ecCrcChk, Instr.ecCrcStrip) ∈
    [(Instr.ecParEnc, Instr.ecParChk, Instr.ecParStrip), (Instr.ecSumEnc, Instr.ecSumChk, Instr.ecSumStrip),
      (Instr.ecCrcEnc, Instr.ecCrcChk, Instr.ecCrcStrip)] := by decide
theorem witness_SingleFlipFailsParityAndChecksum : (Instr.ecSumEnc, Instr.ecSumChk) ∈
    [(Instr.ecParEnc, Instr.ecParChk), (Instr.ecSumEnc, Instr.ecSumChk)] ∧ 15 < (checksumEncode []).length := by
  decide +kernel
theorem witness_CrcCodeWordLaws : 31 < ready.inBits.length + 32 := by decide +kernel
theorem witness_HammingCorrectsEverySingleFlip : 2 < (hamEncode [true]).length := by decide +kernel
theorem witness_LineEncodersResult : (start (buildS 2)).params.samples % 2 = 0 ∧ (start (buildS 1)).params.samples % 2 = 1 := by
  decide +kernel
theorem witness_LineDecodersResult :
    (1 ≤ (start (buildS 2)).params.samples ∧ (start (buildS 2)).params.samples % 2 = 0) ∧
    (1 ≤ (start (buildS 1)).params.samples ∧ (start (buildS 1)).params.samples % 2 = 1) := by decide +kernel
theorem witness_LineCodeRoundTrip :
    0 < (start (buildS 2)).params.lineAmp.toReal ∧ 1 ≤ (start (buildS 2)).params.samples ∧
    lineReady (start (buildS 2)).params .manchester := by
  exact ⟨lineAmp_pos, by decide +kernel, fun _ => by decide +kernel⟩
theorem witness_AskAndFskModulate :
    1 ≤ (withBits (buildS 5) [0, 1]).params.carrierFreq ∧
    4 * (withBits (buildS 5) [0, 1]).params.carrierFreq < (withBits (buildS 5) [0, 1]).params.samples ∧
    1 < (withBits (buildS 5) [0, 1]).inBits.length := by decide +kernel
theorem witness_AskAndFskDemodulate :
    1 ≤ (start (buildS 5)).params.carrierFreq ∧
    4 * (start (buildS 5)).params.carrierFreq < (start (buildS 5)).params.samples := by decide +kernel
theorem witness_carrierReady : ∀ sch, carrierReady build sch := by
  intro sch
  refine ⟨by decide +kernel, by decide +kernel, ?_⟩
  cases sch <;> intro h <;> first | rfl | exact h.elim
theorem witness_TableModulate : hasTable .qam16 ∧ carrierReady ready.params .qam16 := ⟨trivial, witness_carrierReady _⟩
theorem witness_TableDemodulate : hasTable .psk8 ∧ carrierReady ready.params .psk8 ∧ 0 < ready.params.carrierAmp.toReal :=
  ⟨trivial, witness_carrierReady _, carrierAmp_pos⟩
theorem witness_ParameterFaultsNameTheParameter :
    (start { build with esc := 0x7E#8 }).params.flag = (start { build with esc := 0x7E#8 }).params.esc ∧
    (start (buildS 1)).params.samples % 2 = 1 ∧
    (start { build with carrierFreq := 0 }).params.carrierFreq = 0 ∧
    ((start (buildS 4)).params.carrierFreq ≠ 0 ∧
      (start (buildS 4)).params.samples ≤ 4 * (start (buildS 4)).params.carrierFreq) ∧
    (let p := { build with qpskTab := [.polar 1 0] }
     p.carrierFreq ≠ 0 ∧ 4 * p.carrierFreq < p.samples ∧ (symTab p .qpsk).length ≠ 2 ^ symbolWidth .qpsk) ∧
    (let s := { start (buildS 5) with cfg := cfgP1, cfgValid := true }
     onComplexPath .qpsk ∧ s.cfgValid = true ∧ s.cfg.line = .manchester ∧ s.params.samples % 2 = 1 ∧
       carrierReady s.params .qpsk) ∧
    lineReady bridgeIn.params bridgeIn.cfg.line :=
  ⟨by decide +kernel, by decide +kernel, by decide +kernel, by decide +kernel, by decide +kernel,
    ⟨trivial, rfl, rfl, by decide +kernel, by decide +kernel, by decide +kernel, fun _ => rfl⟩, fun h => nomatch h⟩
theorem witness_CarrierRoundTrip :
    ready.params.ampsOk = true ∧ ready.params.carrierOk = true ∧ ready.params.askOk = true ∧
    ready.params.tablesOk = true := by decide +kernel
theorem witness_LinearBridgeForward :
    1 ≤ bridgeIn.params.carrierFreq ∧ 4 * bridgeIn.params.carrierFreq < bridgeIn.params.samples := by decide +kernel
theorem witness_LinearBridgeReverse :
    1 ≤ bridgeIn.params.carrierFreq ∧ 4 * bridgeIn.params.carrierFreq < bridgeIn.params.samples ∧
    bridgeIn.params.lpfAlign = .centred := by decide +kernel
theorem witness_ComplexBridgeComposes :
    onComplexPath .qpsk ∧ bridgeIn.cfgValid = true ∧ carrierReady bridgeIn.params .qpsk ∧
    lineReady bridgeIn.params bridgeIn.cfg.line :=
  ⟨trivial, rfl, witness_carrierReady _, fun h => nomatch h⟩
theorem witness_ComplexBridgeNeedsConfiguration :
    onComplexPath .fsk ∧ (start build).cfgValid = false ∧ reverseOf .fsk ∈ [forwardOf .fsk, reverseOf .fsk] :=
  ⟨trivial, rfl, by decide⟩
theorem witness_ChannelNoiseResult :
    ((start build).inSigma = .real .zero ∧ Sample.zero.toReal ≤ 0) ∧
    (let s := { withSig build [1, 2, 3] with inSigma := .real (q 2), noise := [1 / 2, -4, 0].map q }
     s.inSigma = .real (q 2) ∧ 0 < (q 2).toReal ∧ s.inSig.length = s.noise.length) ∧
    (let s := { withSig build [1, 2, 3] with inSigma := .real (q 2), noise := [1 / 2].map q }
     s.inSigma = .real (q 2) ∧ 0 < (q 2).toReal ∧ s.noise.length < s.inSig.length) ∧
    { withSig build [1] with inSigma := .notReal }.inSigma = .notReal :=
  ⟨⟨rfl, Sample.zero_toReal.le⟩, ⟨rfl, q_pos (by norm_num), by decide +kernel⟩,
    ⟨rfl, q_pos (by norm_num), by decide +kernel⟩, rfl⟩
theorem witness_charsOk : charsOk [0, 85, 255] := by
  intro c h
  simp only [List.mem_cons, List.not_mem_nil, or_false] at h
  rcases h with rfl | rfl | rfl <;> decide
theorem witness_TextConversionResults :
    charsOk (withText [0, 85, 255]).inText ∧
    (255 < (withText [255, 256]).inText.getD 1 0 ∧ ∀ j, j < 1 → (withText [255, 256]).inText.getD j 0 ≤ 255) := by
  refine ⟨witness_charsOk, by decide +kernel, ?_⟩
  intro j h
  interval_cases j
  decide +kernel
theorem witness_TextRoundTrip : charsOk (withText [0, 85, 255]).inText := witness_charsOk
theorem witness_ConfigureResult :
    ({ ready with pstate := .transmitting }.pstate ≠ .idle) ∧
    (ready.pstate = .idle ∧ firstBadField 0x00E0 (.real .zero) = some .framing ∧ firstBadField 0x0500 (.real .zero) = some .ec ∧
      firstBadField 0x0819 (.real .zero) = some .reserved ∧ firstBadField 0x0019 .notReal = some .sigma ∧
      firstBadField 0x041C .notReal = some .carrier ∧ firstBadField 0x0003 .notReal = some .line) ∧
    (let s := { start (buildS 1) with inCfgw := 0x0019#16 }
     s.pstate = .idle ∧ firstBadField s.inCfgw.toNat s.inSigma = none ∧ s.inCfgw.toNat % 4 = 1 ∧
       s.params.samples % 2 = 1) ∧
    (let s := { ready with inCfgw := 0x0019#16 }
     s.pstate = .idle ∧ s.inCfgw = packed cfgP1 ∧ s.inSigma = .real cfgP1.sigma ∧ 0 ≤ cfgP1.sigma.toReal ∧
       lineReady s.params cfgP1.line) :=
  ⟨by decide, by decide +kernel, by decide +kernel, rfl, by decide +kernel, rfl, Sample.zero_toReal.ge,
    fun _ => by decide +kernel⟩
theorem witness_TransmitAcceptance :
    ({ ready with pstate := .transmitting }.pstate ≠ .idle) ∧
    ((start build).pstate = .idle ∧ (start build).cfgValid = false) ∧
    (let s := { ready with inText := [256] }
     s.pstate = .idle ∧ s.cfgValid = true ∧ 255 < s.inText.getD 0 0) ∧
    (ready.pstate = .idle ∧ ready.cfgValid = true ∧ charsOk ready.inText) :=
  ⟨by decide, by decide, by decide +kernel, rfl, rfl, charsOk_ready⟩
theorem witness_InspectResult : { ready with inIndex := 3 }.inIndex ≤ 3 ∧ 3 < { ready with inIndex := 4 }.inIndex := by
  decide +kernel
theorem witness_SequencerTakesTheStagesInOrder :
    (∀ f ∈ [Flight.t1 [85], .t2 [], .t3 [], .t4 [], .t5 [], .t6 [] [], .r1 [] [] [], .r2 [] [] [] [],
      .r3 [] [] [] [] [],
        .r4 [] [] [] [] [], .r5 [] [] [] [] [] .success, .r6 [] [] [] [] [85] .success],
      (inRun cfgP1 .transmitting f).hostActs.headD .pass = .pass ∧ (inRun cfgP1 .transmitting f).flight = some f) ∧
    ((inRun cfgOn .transmitting (.t5 [])).snap.carrierEn = true ∧
      (inRun cfgOn .transmitting (.t5 [])).snap.carrier = some .qpsk) ∧
    ((inRun cfgP1 .transmitting (.t5 [])).snap.carrierEn = false ∨
      (inRun cfgP1 .transmitting (.t5 [])).snap.carrier = none) ∧
    ((inRun cfgP5 .receiving (.r4 [] [] [] [] [])).snap.ec, Instr.ecSumChk, Instr.ecSumStrip, Status.success,
        Status.checksumError) ∈
      [(ErrorControl.none, Instr.ecNoneChk, Instr.ecNoneStrip, Status.noVerification, Status.noVerification),
        (.parity, .ecParChk, .ecParStrip, .success, .parityError),
        (.checksum, .ecSumChk, .ecSumStrip, .success, .checksumError),
        (.crc, .ecCrcChk, .ecCrcStrip, .success, .crcError)] ∧
    (inRun { cfgP5 with ec := .hamming } .receiving (.r4 [] [] [] [] [])).snap.ec = .hamming :=
  ⟨by simp [inRun, start, State.reset], ⟨rfl, rfl⟩, .inl rfl, by simp [inRun, cfgP5], rfl⟩
theorem witness_LengthOverflowEndsTheRun :
    let s := inRun cfgP1 .transmitting (.t3 (List.replicate 2033 true))
    s.hostActs.headD .pass = .pass ∧ s.flight = some (.t3 (List.replicate 2033 true)) ∧
      s.snap.framing = .characterCount ∧ 254 < ((List.replicate 2033 true).length + 7) / 8 :=
  ⟨rfl, rfl, rfl, by decide +kernel⟩
theorem witness_EveryRunCompletesOnce :
    (∃ t, exec .plTransmit ready = .next t ∧ t.result = .done) ∧
    (let s := { inRun cfgP1 .transmitting (.t1 [85]) with hostActs := [.command 0xC8#8, .pass, .readStatus] }
     s.flight = some (.t1 [85]) ∧ s.pstate ≠ .idle) :=
  ⟨⟨_, rfl, by decide +kernel⟩, by decide +kernel⟩
theorem witness_ResultsPublishedAtomically :
    ∃ t, step (inRun cfgP5 .receiving (.r6 [] [] [] [] [64] .checksumError)) = .next t := ⟨_, rfl⟩
theorem witness_ConfigurationWrittenOnlyWhenIdle :
    (∃ t, step (asked { ready with cfgValid := false } 0xC4#8) = .next t ∧ t.result = .done ∧ t.cfgValid = true) ∧
    (∃ t, step (asked ready 0xC4#8) = .next t ∧ t.cfg ≠ cfgP1) ∧
    ∃ t, step (asked ready 0xC8#8) = .next t ∧ t.result = .done ∧ t.snap ≠ ready.snap ∧ t.snap = cfgP1 :=
  ⟨⟨_, rfl, by decide +kernel⟩, ⟨_, rfl, by decide +kernel⟩, ⟨_, rfl, by decide +kernel⟩⟩
theorem witness_HostCannotDisturbARun :
    let s := asked (inRun cfgP1 .transmitting (.t1 [85])) 0xC4#8
    s.hostActs = .command 0xC4#8 :: [] ∧ HostAct.command 0xC4#8 ≠ .pass ∧ s.pstate ≠ .idle ∧ ∃ t, step s = .next t :=
  ⟨rfl, by decide, by decide, _, rfl⟩
theorem witness_FlagsWrittenOnlyByTheirOperations : ∃ t, exec .ecParChk ready = .next t := ⟨_, rfl⟩
theorem witness_OperationsNeverWriteInputsOrBuild : ∃ t, step ready = .next t := ⟨_, rfl⟩
theorem witness_NoStepStopsAndStatusReadsAnswer :
    ({ ready with hostActs := [.readStatus] }.hostActs = .readStatus :: [] ∧ ready.status = none) ∧
    (let s := { ready with hostActs := [.readStatus], status := some .success }
     s.hostActs = .readStatus :: [] ∧ s.status = some .success) := by
  decide +kernel
theorem witness_HostWritesItsOperand :
    (∃ s : State, s.hostActs = .present (.bits [true]) :: []) ∧ (∃ s : State,
      s.hostActs = .present (.samples []) :: []) ∧
    (∃ s : State, s.hostActs = .present (.text [85]) :: []) ∧ (∃ s : State, s.hostActs = .present (.cfgw 0#16) :: []) ∧
    (∃ s : State, s.hostActs = .present (.sigma .notReal) :: []) ∧ (∃ s : State,
      s.hostActs = .present (.index 4) :: []) ∧
    (∃ s : State, s.hostActs = .chain :: [] ∧ s.out = .bits []) ∧
    (∃ s : State, s.hostActs = .chain :: [] ∧ s.out = .samples []) ∧
    (∃ s : State, s.hostActs = .chain :: [] ∧ s.out = .text []) ∧
    ∃ s : State, s.hostActs = .chain :: [] ∧ s.out = .empty :=
  ⟨⟨{ ready with hostActs := _ }, rfl⟩, ⟨{ ready with hostActs := _ }, rfl⟩, ⟨{ ready with hostActs := _ }, rfl⟩,
    ⟨{ ready with hostActs := _ }, rfl⟩, ⟨{ ready with hostActs := _ }, rfl⟩, ⟨{ ready with hostActs := _ }, rfl⟩,
    ⟨{ ready with hostActs := _, out := _ }, rfl, rfl⟩, ⟨{ ready with hostActs := _, out := _ }, rfl, rfl⟩,
    ⟨{ ready with hostActs := _, out := _ }, rfl, rfl⟩, ⟨{ ready with hostActs := _, out := _ }, rfl, rfl⟩⟩
theorem witness_EveryStepKeepsTheInvariant :
    Inv (inRun cfgP5 .receiving (.r6 [q 5] [q 5] [q (-7)] [q (-7)] [64] .checksumError)) ∧
    ∃ t, step (inRun cfgP5 .receiving (.r6 [q 5] [q 5] [q (-7)] [q (-7)] [64] .checksumError)) = .next t := by
  refine ⟨?_, _, rfl⟩
  constructor
  · rfl
  · intro _; decide +kernel
  · intro _; exact ⟨rfl, rfl⟩
  · intro f h
    cases h
    refine ⟨fun _ => rfl, rfl, fun _ => rfl, .inr rfl, ?_⟩
    intro c h
    simp only [List.mem_cons, List.not_mem_nil, or_false] at h
    subst h
    decide
  · intro c h; cases h
  · rfl
  · intro h; exact absurd rfl h
  · intro e h; cases h
theorem witness_NoiselessPipelineReturnsTheText :
    0 < ready.params.lineAmp.toReal ∧ 1 ≤ ready.params.samples ∧ lineReady ready.params ready.cfg.line ∧
    ready.params.flag ≠ ready.params.esc ∧ ready.pstate = .idle ∧ ready.cfgValid = true ∧
    ready.cfg.sigma.toReal = 0 ∧ (ready.cfg.carrierEn = false ∨ ready.cfg.carrier = none) ∧ charsOk ready.inText ∧
    (ecEncode ready.cfg.ec (ready.inText.flatMap (beBits 8))).length ≤ 2032 :=
  ⟨lineAmp_pos, by decide +kernel, fun _ => by decide +kernel, by decide +kernel, rfl, rfl, Sample.zero_toReal,
      .inl rfl,
    charsOk_ready, by decide +kernel⟩

end Sys2Proof.Tests
end

section
/-! PROOFS. The family 10_state.md. `exec_effect` says once what each of the 56 operations can do, `act_cases` what a
host action that is no operation leaves unchanged; O47, O49, O50, O51 and O52 are read off from them. -/

namespace Sys2Proof.Machine

/-! ## Stage functions that never warn -/

/-- A stage function's answer carries no warning. -/
def Silent {α : Type} (r : Staged α) : Prop := ∀ a w, r = .ok (a, w) → w = false

theorem silent_error {α : Type} (t : Trap) : Silent (.error t : Staged α) := by
  intro a w h
  cases h

theorem silent_ok {α : Type} (a : α) : Silent (.ok (a, false) : Staged α) := by
  intro a' w h
  cases h
  rfl

theorem Silent.asBits {r : Staged BitSeq} (h : Silent r) : Silent (asBits r) := by
  intro b w hr
  rcases r with t | ⟨x, w'⟩
  · cases hr
  · cases hr
    exact h x w rfl

theorem Silent.asSamples {r : Staged (List Sample)} (h : Silent r) : Silent (asSamples r) := by
  intro b w hr
  rcases r with t | ⟨x, w'⟩
  · cases hr
  · cases hr
    exact h x w rfl

/-- A parameter check before an answer without a warning. -/
theorem silent_of_check {α : Type} (check : Except Trap Unit) (a : α) :
    Silent (match check with | .error t => .error t | .ok _ => .ok (a, false) : Staged α) := by
  cases check with
  | error t => exact silent_error t
  | ok _ => exact silent_ok a

theorem bsEncode_silent (p : Params) (b : BitSeq) : Silent (bsEncode p b) :=
  silent_of_check (byteStuffingParams p) (bsFrame p b)

theorem manEncode_silent (p : Params) (b : BitSeq) : Silent (manEncode p b) :=
  silent_of_check (manchesterParams p) (manSignal p b)

theorem carrierMod_silent (p : Params) (c : Scheme) (b : BitSeq) : Silent (carrierMod p c b) :=
  silent_of_check (schemeParams p c) (schemeSignal p c b)

theorem linearPath_silent (p : Params) (x : List Sample) : Silent (linearPath p x) :=
  silent_of_check (carrierParams p) x

theorem ccEncode_silent (b : BitSeq) : Silent (ccEncode b) := by
  simp only [ccEncode]
  split
  · exact silent_error _
  · exact silent_ok _

theorem textEncode_silent (t : Text) : Silent (textEncode t) := by
  unfold textEncode
  split
  · exact silent_error _
  · exact silent_ok _

/-! ## What an operation can do -/

/-- The operations that write a verdict to OK (R27). -/
def verdictOps : List Instr := [.ecNoneChk, .ecParChk, .ecSumChk, .ecCrcChk]

/-- The operations of R284's table, which may set WARN. -/
def warningOps : List Instr :=
  [.lcNrzDec, .lcManDec, .lcAmiDec, .cmAskDem, .cmFskDem, .cmBpskDem, .cmQpskDem, .cm8pskDem, .cmQam16Dem, .abFskFwd,
    .abFskRev, .abQpskFwd, .abQpskRev, .ab8pskFwd, .ab8pskRev, .abQam16Fwd, .abQam16Rev, .frmBsDec, .txtDec]

/-- `Effect i s t`: operation `i` may lead from `s` to `t`. One constructor for each kind of write an operation makes. -/
inductive Effect : Instr → State → State → Prop
  /-- The command raises a fault (R280). -/
  | raised (i s) (f : Trap) : Effect i s (s.raise f)
  /-- The operation leaves its output and writes no flag. -/
  | emitted (i s) (b : Buf) : Effect i s (s.emit b)
  /-- A truncating operation leaves its output and its warning (R284). -/
  | warned {i} (s) (w : Bool) (b : Buf) (h : i ∈ warningOps) : Effect i s ((s.warnIf w).emit b)
  /-- A check leaves its verdict in OK (R27). -/
  | checked {i} (s) (v : Bool) (b : Buf) (h : i ∈ verdictOps) : Effect i s ((s.setOk v).emit b)
  /-- The Hamming decoder leaves CORRECTED (R27). -/
  | corrected (s) (v : Bool) (b : Buf) : Effect .ecHamDec s ((s.setCorrected v).emit b)
  /-- The channel takes its draws (R237). -/
  | noised (s) (a : SigmaArg) (x : List Sample) (b : Buf) : Effect .chNoise s ((s.channelDone a x).emit b)
  /-- PL.CONFIGURE from Idle replaces CFG (R247). -/
  | configured (s) (c : PipeCfg) (hidle : s.pstate = .idle) : Effect .plConfigure s (s.setCfg c).done
  /-- PL.TRANSMIT from Idle with a valid configuration is accepted (R249). -/
  | accepted (s) (x : Text) (hidle : s.pstate = .idle) (hvalid : s.cfgValid = true) : Effect .plTransmit s (s.accept x)

section EffectLemmas

variable {i : Instr} {s t : State}

@[simp] theorem State.warnIf_false (s : State) : s.warnIf false = s := by simp [State.warnIf]

theorem effect_finish_of_silent {r : Staged Buf} (i : Instr) (s : State) (h : Silent r) : Effect i s (s.finish r) := by
  rcases r with f | ⟨b, w⟩
  · exact .raised i s f
  · obtain rfl := h b w rfl
    simpa [State.finish] using Effect.emitted i s b

theorem effect_finish_of_warningOp (s : State) (r : Staged Buf) (h : i ∈ warningOps) : Effect i s (s.finish r) := by
  rcases r with f | ⟨b, w⟩
  · exact .raised i s f
  · exact .warned s w b h

theorem effect_ifConfigured (s : State) (r : Staged (List Sample)) (h : i ∈ warningOps) :
    Effect i s (s.ifConfigured r) := by
  unfold State.ifConfigured
  split
  · exact effect_finish_of_warningOp s _ h
  · exact .raised i s _

theorem State.setPState_self {p : PState} (h : s.pstate = p) : s.setPState p = s := by
  subst h
  rfl

theorem State.busy_eq_false_iff (s : State) : s.busy = false ↔ s.pstate = .idle := by simp [State.busy]

/-- PL.CONFIGURE raises a fault or, from Idle, replaces CFG; Configuring is over when it answers. -/
theorem execPlConfigure_effect (s : State) : ∃ t, execPlConfigure s = .next t ∧ Effect .plConfigure s t := by
  refine ⟨_, rfl, ?_⟩
  cases hbusy : s.busy with
  | true => exact .raised _ s _
  | false =>
    have hidle : s.pstate = .idle := s.busy_eq_false_iff.mp hbusy
    cases hreq : requestedCfg (s.setPState .configuring) with
    | error f =>
      have : ((s.setPState .configuring).setPState .idle).raise f = s.raise f :=
        congrArg (State.raise · f) (State.setPState_self hidle)
      simpa [hreq, this] using Effect.raised .plConfigure s f
    | ok c =>
      have : (((s.setPState .configuring).setCfg c).setPState .idle).done = (s.setCfg c).done :=
        congrArg (fun u => (State.setCfg u c).done) (State.setPState_self hidle)
      simpa [hreq, this] using Effect.configured s c hidle

/-- PL.TRANSMIT raises a fault or, from Idle with a valid configuration, is accepted. -/
theorem execPlTransmit_effect (s : State) : ∃ t, execPlTransmit s = .next t ∧ Effect .plTransmit s t := by
  refine ⟨_, rfl, ?_⟩
  cases hbusy : s.busy with
  | true => exact .raised _ s _
  | false =>
    cases hvalid : s.cfgValid with
    | false => exact .raised _ s _
    | true =>
      cases firstBadChar s.inText with
      | some n => exact .raised _ s _
      | none => exact .accepted s _ (s.busy_eq_false_iff.mp hbusy) hvalid

/-- PL.INSPECT copies a signal buffer to OUT or raises InvalidCommand. -/
theorem execPlInspect_effect (s : State) : ∃ t, execPlInspect s = .next t ∧ Effect .plInspect s t := by
  refine ⟨_, rfl, ?_⟩
  cases s.signal s.inIndex with
  | some x => exact .emitted _ s _
  | none => exact .raised _ s _

/-- Every operation answers in every state, with one of the effects of `Effect`. -/
theorem exec_effect (i : Instr) (s : State) : ∃ t, exec i s = .next t ∧ Effect i s t := by
  cases i with
  | frmCcDec | frmBitEnc | frmBitDec | ecNoneEnc | ecNoneStrip | ecParEnc | ecParStrip | ecSumEnc | ecSumStrip
  | ecCrcEnc | ecCrcStrip | ecHamEnc | lcNrzEnc | lcAmiEnc => exact ⟨_, rfl, .emitted _ s _⟩
  | ecNoneChk | ecParChk | ecSumChk | ecCrcChk => exact ⟨_, rfl, .checked s _ _ (by decide)⟩
  | ecHamDec => exact ⟨_, rfl, .corrected s _ _⟩
  | lcNrzDec | lcAmiDec | txtDec => exact ⟨_, rfl, .warned s _ _ (by decide)⟩
  | frmBsDec | lcManDec | cmAskDem | cmFskDem | cmBpskDem | cmQpskDem | cm8pskDem | cmQam16Dem =>
    exact ⟨_, rfl, effect_finish_of_warningOp s _ (by decide)⟩
  | abFskFwd | abFskRev | abQpskFwd | abQpskRev | ab8pskFwd | ab8pskRev | abQam16Fwd | abQam16Rev =>
    exact ⟨_, rfl, effect_ifConfigured s _ (by decide)⟩
  | frmCcEnc => exact ⟨_, rfl, effect_finish_of_silent _ s (ccEncode_silent _).asBits⟩
  | frmBsEnc => exact ⟨_, rfl, effect_finish_of_silent _ s (bsEncode_silent _ _).asBits⟩
  | lcManEnc => exact ⟨_, rfl, effect_finish_of_silent _ s (manEncode_silent _ _).asSamples⟩
  | cmAskMod | cmFskMod | cmBpskMod | cmQpskMod | cm8pskMod | cmQam16Mod =>
    exact ⟨_, rfl, effect_finish_of_silent _ s (carrierMod_silent _ _ _).asSamples⟩
  | abAskFwd | abAskRev | abBpskFwd | abBpskRev =>
    exact ⟨_, rfl, effect_finish_of_silent _ s (linearPath_silent _ _).asSamples⟩
  | txtEnc => exact ⟨_, rfl, effect_finish_of_silent _ s (textEncode_silent _).asBits⟩
  | chNoise => exact ⟨_, rfl, .noised s _ _ _⟩
  | plConfigure => exact execPlConfigure_effect s
  | plTransmit => exact execPlTransmit_effect s
  | plInspect => exact execPlInspect_effect s

theorem effect_of_exec (h : exec i s = .next t) : Effect i s t := by
  obtain ⟨u, hu, heff⟩ := exec_effect i s
  obtain rfl : u = t := Host.Outcome.next.inj (hu.symm.trans h)
  exact heff

/-- What no operation writes: IN in all its kinds, the published results, the event, the script and the build. -/
theorem Effect.frame (h : Effect i s t) :
    t.inBits = s.inBits ∧ t.inSig = s.inSig ∧ t.inText = s.inText ∧ t.inCfgw = s.inCfgw ∧ t.inSigma = s.inSigma ∧
    t.inIndex = s.inIndex ∧ t.sigBase = s.sigBase ∧ t.sigMod = s.sigMod ∧ t.sigRx = s.sigRx ∧
    t.sigDemod = s.sigDemod ∧ t.rtext = s.rtext ∧ t.status = s.status ∧ t.event = s.event ∧
    t.hostActs = s.hostActs ∧ t.params = s.params := by
  cases h <;> simp

theorem Effect.params (h : Effect i s t) : t.params = s.params := by
  cases h <;> simp

/-- CFG and CFG_VALID are written by an accepted PL.CONFIGURE only. -/
theorem Effect.cfg_cases (h : Effect i s t) :
    (t.cfg = s.cfg ∧ t.cfgValid = s.cfgValid) ∨
      (i = .plConfigure ∧ s.pstate = .idle ∧ t.result = .done ∧ t.cfgValid = true) := by
  cases h with
  | configured _ c hidle => exact .inr ⟨rfl, hidle, rfl, rfl⟩
  | _ => exact .inl (by simp)

/-- SNAP is written by an accepted PL.TRANSMIT only. -/
theorem Effect.snap_cases (h : Effect i s t) :
    t.snap = s.snap ∨
      (i = .plTransmit ∧ s.pstate = .idle ∧ t.result = .done ∧ s.cfgValid = true ∧ t.snap = s.cfg) := by
  cases h with
  | accepted _ x hidle hvalid => exact .inr ⟨rfl, hidle, rfl, hvalid, rfl⟩
  | _ => exact .inl (by simp)

theorem Effect.ok_cases (h : Effect i s t) : t.ok = s.ok ∨ i ∈ verdictOps := by
  cases h with
  | checked _ v b hmem => exact .inr hmem
  | _ => exact .inl (by simp)

theorem Effect.corrected_cases (h : Effect i s t) : t.corrected = s.corrected ∨ i = .ecHamDec := by
  cases h with
  | corrected => exact .inr rfl
  | _ => exact .inl (by simp)

/-- WARN is cleared by an accepted PL.TRANSMIT, and set, never cleared, by R284's operations. -/
theorem Effect.warn_cases (h : Effect i s t) :
    t.warn = s.warn ∨ (i = .plTransmit ∧ t.warn = false) ∨ (t.warn = true ∧ i ∈ warningOps) := by
  cases h with
  | accepted => exact .inr (.inl ⟨rfl, rfl⟩)
  | warned _ w b hmem =>
    cases w with
    | false => exact .inl (by simp)
    | true => exact .inr (.inr ⟨by simp, hmem⟩)
  | _ => exact .inl (by simp)

/-! ## What a step can do -/

/-- The configuration registers and the build are the same in two states. -/
structure KeepsConfig (s t : State) : Prop where
  cfg : t.cfg = s.cfg
  cfgValid : t.cfgValid = s.cfgValid
  snap : t.snap = s.snap
  params : t.params = s.params

theorem keepsConfig_stage {α : Type} (s : State) (r : Staged α) (k : α → Flight) : KeepsConfig s (s.stage r k) := by
  rcases r with f | ⟨a, w⟩ <;> exact ⟨rfl, rfl, rfl, rfl⟩

/-- No stage of a run writes the configuration or the build. -/
theorem keepsConfig_runStage (s : State) (f : Flight) : KeepsConfig s (s.runStage f) := by
  cases f with
  | t1 | t3 | t4 | t5 | r1 | r2 | r3 => exact keepsConfig_stage s _ _
  | t2 | r5 | r6 => exact ⟨rfl, rfl, rfl, rfl⟩
  | t6 | r4 => constructor <;> simp [State.runStage]

theorem keepsConfig_sequence (s : State) : KeepsConfig s s.sequence := by
  unfold State.sequence
  split
  · exact keepsConfig_runStage s _
  · exact ⟨rfl, rfl, rfl, rfl⟩

/-- A host action always answers: it runs an operation, or it leaves the configuration and the build as they are. -/
theorem act_cases (s : State) (a : HostAct) :
    ∃ t, s.act a = .next t ∧ (KeepsConfig s t ∨ ∃ c i, a = .command c ∧ decode c = .ok i ∧ Effect i s t) := by
  cases a with
  | present o => exact ⟨_, rfl, .inl (by constructor <;> simp)⟩
  | chain => exact ⟨_, rfl, .inl (by constructor <;> simp)⟩
  | pass => exact ⟨_, rfl, .inl (keepsConfig_sequence s)⟩
  | readStatus => exact ⟨_, rfl, .inl (by constructor <;> simp)⟩
  | command c =>
    cases hdec : decode c with
    | error e => exact ⟨_, s.command_error hdec, .inl ⟨rfl, rfl, rfl, rfl⟩⟩
    | ok i =>
      obtain ⟨t, hexec, heff⟩ := exec_effect i s
      exact ⟨t, (s.command_ok hdec).trans hexec, .inr ⟨c, i, rfl, hdec, heff⟩⟩

/-- A step runs an operation whose byte heads the script, or it leaves the configuration and the build as they are. -/
theorem step_cases (h : step s = .next t) :
    KeepsConfig s t ∨
      ∃ c i, s.hostActs.head? = some (.command c) ∧ decode c = .ok i ∧ Effect i s.consume t := by
  obtain ⟨u, hu, hcases⟩ := act_cases s.consume (s.hostActs.headD .pass)
  obtain rfl : u = t := Host.Outcome.next.inj (hu.symm.trans h)
  rcases hcases with hkeep | ⟨c, i, hhead, hdec, heff⟩
  · exact .inl ⟨hkeep.cfg, hkeep.cfgValid, hkeep.snap, hkeep.params⟩
  · refine .inr ⟨c, i, ?_, hdec, heff⟩
    cases hacts : s.hostActs with
    | nil => simp [hacts] at hhead
    | cons a acts => simpa [hacts] using hhead

/-- Where the script has a head, a step is that action, with the script moved on and the event's edge over. -/
theorem step_of_hostActs {a : HostAct} {acts : List HostAct} (h : s.hostActs = a :: acts) :
    step s = { s with hostActs := acts, event := none }.act a := by
  simp [step_eq, State.consume, h]

/-- A byte that decodes is the byte R62's table gives its operation. -/
theorem encode_of_decode {c : CmdWord} (h : decode c = .ok i) : encode i = c := by
  have key : ∀ c : CmdWord, ∀ j ∈ (decode c).toOption, encode j = c := by decide
  exact key c i (by simp [h, Except.toOption])

end EffectLemmas

/-! ## The obligations -/

/-- Settles O47: a step that writes CFG or SNAP has the effect of PL.CONFIGURE or PL.TRANSMIT, from Idle. -/
theorem configurationWrittenOnlyWhenIdle : Obligations.ConfigurationWrittenOnlyWhenIdle := by
  unfold Obligations.ConfigurationWrittenOnlyWhenIdle
  intro s t h
  rcases step_cases h with hkeep | ⟨c, i, hhead, hdec, heff⟩
  · exact ⟨.inl ⟨hkeep.cfg, hkeep.cfgValid⟩, .inl hkeep.snap⟩
  · obtain rfl := encode_of_decode hdec
    constructor
    · rcases heff.cfg_cases with hsame | ⟨rfl, hidle, hdone, hvalid⟩
      · exact .inl hsame
      · exact .inr ⟨hidle, hhead, hdone, hvalid⟩
    · rcases heff.snap_cases with hsame | ⟨rfl, hidle, hdone, hvalid, hsnap⟩
      · exact .inl hsame
      · exact .inr ⟨hidle, hhead, hdone, hvalid, hsnap⟩

/-- Settles O49, from the effect of each operation on OK, CORRECTED and WARN. -/
theorem flagsWrittenOnlyByTheirOperations : Obligations.FlagsWrittenOnlyByTheirOperations := by
  unfold Obligations.FlagsWrittenOnlyByTheirOperations
  intro i s t h
  have heff := effect_of_exec h
  exact ⟨heff.ok_cases, heff.corrected_cases, heff.warn_cases⟩

/-- Settles O50: each effect frames the inputs, the results and the build, and so does each step the build. -/
theorem operationsNeverWriteInputsOrBuild : Obligations.OperationsNeverWriteInputsOrBuild := by
  unfold Obligations.OperationsNeverWriteInputsOrBuild
  constructor
  · intro i s
    obtain ⟨t, hexec, heff⟩ := exec_effect i s
    exact ⟨t, hexec, heff.frame⟩
  · intro s t h
    rcases step_cases h with hkeep | ⟨c, i, -, -, heff⟩
    · exact hkeep.params
    · exact heff.params

/-- Settles O51: every host action answers, and a read of STATUS writes the result register only. -/
theorem noStepStopsAndStatusReadsAnswer : Obligations.NoStepStopsAndStatusReadsAnswer := by
  unfold Obligations.NoStepStopsAndStatusReadsAnswer
  constructor
  · intro s
    obtain ⟨t, hact, -⟩ := act_cases s.consume (s.hostActs.headD .pass)
    exact ⟨t, hact⟩
  · intro s acts hacts
    rw [step_of_hostActs hacts]
    constructor
    · intro hnone
      simp [State.act, State.readStatus, hnone]
    · intro st hsome
      simp [State.act, State.readStatus, hsome]

/-- Settles O52: a present action writes one kind of IN, and a chain action presents what OUT holds. -/
theorem hostWritesItsOperand : Obligations.HostWritesItsOperand := by
  unfold Obligations.HostWritesItsOperand
  rintro s _ acts rfl
  refine ⟨fun _ h => step_of_hostActs h, fun _ h => step_of_hostActs h, fun _ h => step_of_hostActs h,
    fun _ h => step_of_hostActs h, fun _ h => step_of_hostActs h, fun _ h => step_of_hostActs h, fun h => ?_⟩
  rw [step_of_hostActs h]
  refine ⟨?bits, ?samples, ?text, ?empty⟩
  case bits => intro b hout; simp [State.act, State.chain, hout, State.present]
  case samples => intro x hout; simp [State.act, State.chain, hout, State.present]
  case text => intro x hout; simp [State.act, State.chain, hout, State.present]
  case empty => intro hout; simp [State.act, State.chain, hout]

end Sys2Proof.Machine
end

section
/-! PROOFS. The family 30_encoding.md. The command byte is read through its three fields: an operation's byte holds the
operation's fields, and the decoder lists exactly the fields that R64 leaves (O1 to O3). A stage of the sequencer is the
stage function of the operation that SNAP selects (O43). -/

namespace Sys2Proof

/-! ## The command byte and its fields -/

/-- The fields of a command byte (R60). -/
def cmdFields (c : CmdWord) : CmdFields := ⟨cmdUnit c, cmdScheme c, cmdFn c⟩

theorem decode_eq_ok_iff {c : CmdWord} {i : Instr} :
    decode c = .ok i ↔ decodeFields (cmdFields c).unit (cmdFields c).scheme (cmdFields c).fn = some i := by
  unfold decode cmdFields
  split <;> simp_all

theorem decode_ne_ok_iff {c : CmdWord} :
    (∀ i, decode c ≠ .ok i) ↔ decodeFields (cmdFields c).unit (cmdFields c).scheme (cmdFields c).fn = none := by
  simp only [ne_eq, decode_eq_ok_iff, Option.eq_none_iff_forall_ne_some]

/-- R62's table holds each operation at the operation's own fields. -/
theorem decodeFields_fields (i : Instr) : decodeFields i.fields.unit i.fields.scheme i.fields.fn = some i := by
  cases i <;> rfl

/-- Each operation's fields are legal and stand in its byte where R60 places them. -/
theorem encoding_statement (i : Instr) : Laws.Encoding.Statement i := by
  cases i <;> exact ⟨rfl, rfl⟩

theorem CmdFields.maxScheme_le (u : Nat) : CmdFields.maxScheme u ≤ 5 := by
  unfold CmdFields.maxScheme
  split <;> decide

/-- Legal fields fit their places in the byte: SCHEME has three bits and FN two. -/
theorem CmdFields.bounds_of_wf {f : CmdFields} (h : f.wf = true) : f.scheme < 8 ∧ f.fn < 4 := by
  simp only [CmdFields.wf, CmdFields.schemeOk, CmdFields.fnOk, Bool.and_eq_true, decide_eq_true_eq] at h
  obtain ⟨⟨⟨⟨-, hscheme⟩, hfn⟩, -⟩, -⟩ := h
  have := CmdFields.maxScheme_le f.unit
  omega

theorem cmdFields_encode (i : Instr) : cmdFields (encode i) = i.fields := by
  obtain ⟨hwf, hbyte⟩ := encoding_statement i
  obtain ⟨hscheme, hfn⟩ := CmdFields.bounds_of_wf hwf
  have hunit : cmdUnit (encode i) = i.fields.unit := by unfold cmdUnit; omega
  have hscheme' : cmdScheme (encode i) = i.fields.scheme := by unfold cmdScheme; omega
  have hfn' : cmdFn (encode i) = i.fields.fn := by unfold cmdFn; omega
  rw [cmdFields, hunit, hscheme', hfn']

/-- The decoder's table is complete: R62 lists exactly the fields that no clause of R64 reserves. -/
theorem decodeFields_eq_none_iff_not_wf (c : CmdWord) :
    decodeFields (cmdFields c).unit (cmdFields c).scheme (cmdFields c).fn = none ↔ (cmdFields c).wf = false := by
  have table : ∀ u < 8, ∀ x < 8, ∀ f < 4, decodeFields u x f = none ↔ (CmdFields.mk u x f).wf = false := by decide
  have hunit : cmdUnit c < 8 := by have := c.isLt; unfold cmdUnit; omega
  have hscheme : cmdScheme c < 8 := by unfold cmdScheme; omega
  have hfn : cmdFn c < 4 := by unfold cmdFn; omega
  exact table _ hunit _ hscheme _ hfn

/-- R64's clauses, each the failure of one check of `CmdFields.wf`. -/
theorem CmdFields.wf_eq_false_iff (f : CmdFields) :
    f.wf = false ↔
      7 ≤ f.unit ∨ CmdFields.maxScheme f.unit < f.scheme ∨ 3 ≤ f.fn ∨ (f.fn = 2 ∧ ¬(f.unit = 1 ∧ f.scheme ≤ 3)) ∨
        (f.fn = 1 ∧ (f.unit = 5 ∨ (f.unit = 6 ∧ 1 ≤ f.scheme))) := by
  rw [← Bool.not_eq_true]
  simp only [CmdFields.wf, CmdFields.unitOk, CmdFields.schemeOk, CmdFields.fnOk, CmdFields.stripOk,
    CmdFields.inverseOk, Bool.and_eq_true, Bool.or_eq_true, Bool.not_eq_true', Bool.or_eq_false_iff,
    Bool.and_eq_false_iff, decide_eq_true_eq, decide_eq_false_iff_not, bne_iff_ne, beq_iff_eq, beq_eq_false_iff_ne]
  omega

/-- The highest scheme codes as R64's statement lists them. -/
theorem maxScheme_eq_getD : ∀ u < 8, CmdFields.maxScheme u = [2, 4, 2, 5, 5, 0, 3, 0].getD u 0 := by decide

end Sys2Proof

namespace Sys2Proof.Machine

/-- Settles O1: the byte holds the operation's fields, at which R62's table lists the operation. -/
theorem commandDecodeRoundTrip : Obligations.CommandDecodeRoundTrip := by
  unfold Obligations.CommandDecodeRoundTrip
  intro i
  rw [decode_eq_ok_iff, cmdFields_encode]
  exact decodeFields_fields i

/-- Settles O2: each byte is the one `encode` gives its operation. -/
theorem commandWordsOfTheSpec : Obligations.CommandWordsOfTheSpec :=
  have roundTrip := commandDecodeRoundTrip
  ⟨roundTrip .frmCcEnc, roundTrip .frmBitDec, roundTrip .ecSumStrip, roundTrip .ecHamDec, roundTrip .lcManDec,
    roundTrip .cmQpskMod, roundTrip .abQam16Rev, roundTrip .chNoise, roundTrip .txtDec, roundTrip .plConfigure,
    roundTrip .plTransmit, roundTrip .plInspect⟩

/-- A byte that selects no operation only leaves InvalidCommand as the step's result. -/
theorem step_of_reserved {s : State} {c : CmdWord} {acts : List HostAct} (h : ∀ i, decode c ≠ .ok i)
    (hacts : s.hostActs = .command c :: acts) :
    step s = .next { s with hostActs := acts, event := none, result := .fault ⟨.invalidCommand, .command c⟩ } := by
  rw [step_of_hostActs hacts]
  cases hdec : decode c with
  | ok i => exact absurd hdec (h i)
  | error e => exact State.command_error _ hdec

/-- Settles O3: a byte is refused exactly when its fields fail a check of R64. -/
theorem reservedCommandsRefused : Obligations.ReservedCommandsRefused := by
  unfold Obligations.ReservedCommandsRefused
  refine ⟨fun c => ?_, fun s c acts h hacts => step_of_reserved h hacts⟩
  have hc := c.isLt
  rw [decode_ne_ok_iff, decodeFields_eq_none_iff_not_wf, CmdFields.wf_eq_false_iff]
  simp only [cmdFields, cmdUnit, cmdScheme, cmdFn]
  have hmax := maxScheme_eq_getD (c.toNat / 32) (by omega)
  have hnoise : c.toNat / 32 = 5 → CmdFields.maxScheme (c.toNat / 32) = 0 := fun h => by rw [h]; rfl
  have hpipe : c.toNat / 32 = 6 → CmdFields.maxScheme (c.toNat / 32) = 3 := fun h => by rw [h]; rfl
  omega

/-- Settles O4: the command's action is the head of the script, and a legal byte runs its operation. -/
theorem stepRunsDecodedCommand : Obligations.StepRunsDecodedCommand := by
  unfold Obligations.StepRunsDecodedCommand
  constructor
  · intro s c i acts hdec hacts
    rw [step_of_hostActs hacts]
    exact State.command_ok _ hdec
  · intro s w i hdec
    have hacts : (s.withFetchWord 8 w).hostActs = .command (BitVec.ofNat 8 (w % 2 ^ 8)) :: s.hostActs := rfl
    rw [step_of_hostActs hacts]
    exact State.command_ok _ hdec

/-! ## The operation of each stage -/

/-- The end of an operation whose stage function answers a value of the kind `kind` of OUT: its fault, or its output and
its warning. -/
def State.finishAs {α : Type} (s : State) (kind : α → Buf) : Staged α → State
  | .error t => s.raise t
  | .ok (a, w) => (s.warnIf w).emit (kind a)

theorem State.finish_asBits (s : State) (x : Staged BitSeq) : s.finish (asBits x) = s.finishAs .bits x := by
  rcases x with t | ⟨b, w⟩ <;> rfl

theorem State.finish_asSamples (s : State) (x : Staged (List Sample)) :
    s.finish (asSamples x) = s.finishAs .samples x := by
  rcases x with t | ⟨b, w⟩ <;> rfl

theorem State.emit_eq_finishAs {α : Type} (s : State) (kind : α → Buf) (a : α) :
    s.emit (kind a) = s.finishAs kind (.ok (a, false)) := by
  simp [State.finishAs]

section StageOperations

open Sys2Proof.Pseudocode

variable (s : State)

theorem exec_txtEnc : exec .txtEnc s = .next (s.finishAs .bits (textEncode s.inText)) :=
  congrArg Host.Outcome.next (s.finish_asBits _)

theorem exec_txtDec :
    exec .txtDec s = .next (s.finishAs .text (.ok (textDecode s.inBits, partialUnit 8 s.inBits.length))) := rfl

theorem exec_ecEncOf (e : ErrorControl) :
    exec (ecEncOf e) s = .next (s.finishAs .bits (.ok (ecEncode e s.inBits, false))) := by
  rw [← State.emit_eq_finishAs]
  cases e <;> rfl

theorem exec_frameEncOf (f : Framing) :
    exec (frameEncOf f) s = .next (s.finishAs .bits (frameEncode s.params f s.inBits)) := by
  cases f with
  | characterCount | byteStuffing => exact congrArg Host.Outcome.next (s.finish_asBits _)
  | bitStuffing => exact congrArg Host.Outcome.next (s.emit_eq_finishAs _ _)

theorem exec_frameDecOf (f : Framing) :
    exec (frameDecOf f) s = .next (s.finishAs .bits (frameDecode s.params f s.inBits)) := by
  cases f with
  | byteStuffing => exact congrArg Host.Outcome.next (s.finish_asBits _)
  | characterCount | bitStuffing => exact congrArg Host.Outcome.next (s.emit_eq_finishAs _ _)

theorem exec_lineEncOf (c : LineCode) :
    exec (lineEncOf c) s = .next (s.finishAs .samples (lineEncode s.params c s.inBits)) := by
  cases c with
  | manchester => exact congrArg Host.Outcome.next (s.finish_asSamples _)
  | nrz | bipolar => exact congrArg Host.Outcome.next (s.emit_eq_finishAs _ _)

theorem exec_lineDecOf (c : LineCode) :
    exec (lineDecOf c) s = .next (s.finishAs .bits (lineDecode s.params c s.inSig)) := by
  cases c with
  | manchester => exact congrArg Host.Outcome.next (s.finish_asBits _)
  | nrz | bipolar => rfl

theorem State.ifConfigured_of_valid (h : s.cfgValid = true) (x : Staged (List Sample)) :
    s.ifConfigured x = s.finishAs .samples x := by
  rw [← State.finish_asSamples, State.ifConfigured, if_pos h]

theorem exec_forwardOf (sch : Scheme) (h : s.cfgValid = true) :
    exec (forwardOf sch) s = .next (s.finishAs .samples (bridgeForward s.params s.cfg.line sch s.inSig)) := by
  cases sch with
  | ask | bpsk => exact congrArg Host.Outcome.next (s.finish_asSamples _)
  | fsk | qpsk | psk8 | qam16 => exact congrArg Host.Outcome.next (s.ifConfigured_of_valid h _)

theorem exec_reverseOf (sch : Scheme) (h : s.cfgValid = true) :
    exec (reverseOf sch) s = .next (s.finishAs .samples (bridgeReverse s.params s.cfg.line sch s.inSig)) := by
  cases sch with
  | ask | bpsk => exact congrArg Host.Outcome.next (s.finish_asSamples _)
  | fsk | qpsk | psk8 | qam16 => exact congrArg Host.Outcome.next (s.ifConfigured_of_valid h _)

/-- R251's table: each scheme with a check, its CHK and STRIP, and the statuses of the two verdicts. -/
def checkedSchemes : List (ErrorControl × Instr × Instr × Status × Status) :=
  [(.none, .ecNoneChk, .ecNoneStrip, .noVerification, .noVerification),
    (.parity, .ecParChk, .ecParStrip, .success, .parityError),
    (.checksum, .ecSumChk, .ecSumStrip, .success, .checksumError),
    (.crc, .ecCrcChk, .ecCrcStrip, .success, .crcError)]

/-- A row's CHK leaves the verdict, its STRIP the payload, and the verdict picks the row's status. -/
theorem exec_checkedSchemes {e : ErrorControl} {chk strip : Instr} {good bad : Status}
    (h : (e, chk, strip, good, bad) ∈ checkedSchemes) :
    ∃ v, ecVerdict e s.inBits = some v ∧ exec chk s = .next ((s.setOk v).emit (.bits s.inBits)) ∧
      exec strip s = .next (s.emit (.bits (ecPayload e s.inBits))) ∧
      ecStatus e s.inBits = if v then good else bad := by
  simp only [checkedSchemes, List.mem_cons, Prod.mk.injEq, List.not_mem_nil, or_false] at h
  rcases h with ⟨rfl, rfl, rfl, rfl, rfl⟩ | ⟨rfl, rfl, rfl, rfl, rfl⟩ | ⟨rfl, rfl, rfl, rfl, rfl⟩ |
    ⟨rfl, rfl, rfl, rfl, rfl⟩
  all_goals exact ⟨_, rfl, rfl, rfl, rfl⟩

end StageOperations

/-! ## The steps of the sequencer -/

section Stages

variable {s : State}

/-- Where the host does nothing, a step is the stage of the run in flight. -/
theorem step_of_flight {f : Flight} (hpass : s.hostActs.headD .pass = .pass) (hf : s.flight = some f) :
    step s = .next (s.consume.runStage f) := by
  rw [step_eq, hpass]
  simp [State.act, State.sequence, hf]

/-- A stage runs an operation when both end the same stage function: one in OUT, the other in the next stage. -/
theorem stageRuns_of_finishAs {α : Type} {u : State} {i : Instr} {kind : α → Buf} {next : α → Flight} (x : Staged α)
    (hexec : exec i u = .next (u.finishAs kind x)) (hstep : step s = .next (s.consume.stage x next))
    (hwarn : u.warn = s.warn) : stageRuns s s.consume i u kind next := by
  refine ⟨_, hexec, ?_⟩
  rcases x with t | ⟨a, w⟩
  · exact .inr ⟨t, rfl, hstep⟩
  · refine .inl ⟨a, rfl, rfl, hstep.trans ?_⟩
    simp [State.stage, State.goto, State.finishAs, State.warnIf, hwarn]

theorem State.stage_of_silent {α : Type} (a : α) (next : α → Flight) :
    s.stage (.ok (a, false)) next = s.goto (next a) := by
  simp [State.stage]

/-- The channel writes the noise input only. -/
theorem State.channelDone_eq (a : SigmaArg) (x : List Sample) :
    s.channelDone a x =
      { s with
        noise := if passThrough a then s.noise else s.noise.drop x.length
        noiseIx := if passThrough a then s.noiseIx else s.noiseIx + (x.length - s.noise.length) } := by
  unfold State.channelDone
  split <;> rfl

theorem State.ecFlags_of_verdict {e : ErrorControl} {b : BitSeq} {v : Bool} (h : ecVerdict e b = some v) :
    s.ecFlags e b = s.setOk v := by
  simp [State.ecFlags, h]

theorem carrierOn_of_enabled {c : PipeCfg} {sch : Scheme} (hen : c.carrierEn = true) (hsch : c.carrier = some sch) :
    carrierOn c = some sch := by
  simp [carrierOn, hen, hsch]

theorem carrierOn_of_disabled {c : PipeCfg} (h : c.carrierEn = false ∨ c.carrier = none) : carrierOn c = none := by
  rcases h with h | h <;> simp [carrierOn, h]

end Stages

/-- Settles O43: each stage ends the stage function of the operation that SNAP selects. -/
theorem sequencerTakesTheStagesInOrder : Obligations.SequencerTakesTheStagesInOrder := by
  unfold Obligations.SequencerTakesTheStagesInOrder
  intro s r hpass hr
  obtain rfl : r = s.consume := hr
  refine ⟨?t1, ?t2, ?t3, ?t4, ?t5, ?t6, ?r1, ?r2, ?r3, ?r4, ?r5, ?r6⟩
  case t1 =>
    intro t hf
    exact stageRuns_of_finishAs _ (exec_txtEnc _) (step_of_flight hpass hf) rfl
  case t2 =>
    intro b hf
    refine stageRuns_of_finishAs _ (exec_ecEncOf _ _) ?_ rfl
    rw [step_of_flight hpass hf, State.stage_of_silent]
    rfl
  case t3 =>
    intro b hf
    exact stageRuns_of_finishAs _ (exec_frameEncOf _ _) (step_of_flight hpass hf) rfl
  case t4 =>
    intro b hf
    exact stageRuns_of_finishAs _ (exec_lineEncOf _ _) (step_of_flight hpass hf) rfl
  case t5 =>
    intro s0 hf
    have hstep : step s = .next (s.consume.stage (stageForward s.params s.snap s0) (.t6 s0)) := step_of_flight hpass hf
    refine ⟨fun sch hen hsch => ?_, fun hoff => ?_⟩
    · simp only [stageForward, carrierOn_of_enabled hen hsch] at hstep
      exact stageRuns_of_finishAs _ (exec_forwardOf _ _ rfl) hstep rfl
    · simp only [stageForward, carrierOn_of_disabled hoff, State.stage_of_silent] at hstep
      exact hstep
  case t6 =>
    intro s0 s1 hf
    refine ⟨_, _, rfl, rfl, ?_⟩
    rw [step_of_flight hpass hf]
    simp only [State.runStage, State.channelDone_eq]
    rfl
  case r1 =>
    intro s0 s1 s2 hf
    have hstep : step s = .next (s.consume.stage (stageReverse s.params s.snap s2) (.r2 s0 s1 s2)) :=
      step_of_flight hpass hf
    refine ⟨fun sch hen hsch => ?_, fun hoff => ?_⟩
    · simp only [stageReverse, carrierOn_of_enabled hen hsch] at hstep
      exact stageRuns_of_finishAs _ (exec_reverseOf _ _ rfl) hstep rfl
    · simp only [stageReverse, carrierOn_of_disabled hoff, State.stage_of_silent] at hstep
      exact hstep
  case r2 =>
    intro s0 s1 s2 s3 hf
    exact stageRuns_of_finishAs _ (exec_lineDecOf _ _) (step_of_flight hpass hf) rfl
  case r3 =>
    intro s0 s1 s2 s3 b hf
    exact stageRuns_of_finishAs _ (exec_frameDecOf _ _) (step_of_flight hpass hf) rfl
  case r4 =>
    intro s0 s1 s2 s3 b hf
    have hstep : step s = .next ((s.consume.ecFlags s.snap.ec b).goto
        (.r5 s0 s1 s2 s3 (ecPayload s.snap.ec b) (ecStatus s.snap.ec b))) := step_of_flight hpass hf
    refine ⟨fun chk strip good bad hmem => ?_, fun hham => ?_⟩
    · obtain ⟨v, hverdict, hchk, hstrip, hstatus⟩ := exec_checkedSchemes { s with inBits := b } hmem
      rw [State.ecFlags_of_verdict hverdict, hstatus] at hstep
      exact ⟨_, _, _, hchk, hstrip, rfl, hstep⟩
    · rw [hham] at hstep
      exact ⟨_, _, rfl, rfl, hstep⟩
  case r5 =>
    intro s0 s1 s2 s3 b st hf
    exact stageRuns_of_finishAs _ (exec_txtDec _) (step_of_flight hpass hf) rfl
  case r6 =>
    intro s0 s1 s2 s3 t st hf
    exact step_of_flight hpass hf

end Sys2Proof.Machine
end

section
/-! PROOFS. The family 40_framing.md. The loops of Pseudocode are first shown equal to the recursions of the model, with
the accumulator general; the round trips and the absence of the flag are then facts about the recursions alone. -/

namespace Sys2Proof.Machine

open Sys2Proof.Pseudocode

/-! ## Sequences: fields, values and groups -/

section Sequences

variable {α : Type} {k : Nat}

theorem slice_eq_take_drop (s : List α) (i j : Nat) : slice s i j = (s.drop i).take (j - i) := List.drop_take

/-- Stripping the first and the last element. -/
theorem slice_one_pred_length (s : List α) : slice s 1 (s.length - 1) = (s.drop 1).dropLast := by
  simp [slice, List.dropLast_eq_take, List.drop_take]

@[simp] theorem beBits_length (n v : Nat) : (beBits n v).length = n := by
  induction n with
  | zero => rfl
  | succ n ih => simp [beBits, ih]

/-- R11: the first bit of a sequence has the greatest weight. -/
theorem val_cons (x : Bit) (s : BitSeq) : val (x :: s) = x.toNat * 2 ^ s.length + val s := by
  have shift : ∀ (s : BitSeq) (a : Nat),
      s.foldl (fun a x => 2 * a + x.toNat) a = a * 2 ^ s.length + val s := by
    intro s
    induction s with
    | nil => intro a; simp [val]
    | cons y s ih =>
      intro a
      rw [val, List.foldl_cons, List.foldl_cons, ih, ih, List.length_cons]
      ring
  simpa [val] using shift s x.toNat

theorem val_beBits (n v : Nat) : val (beBits n v) = v % 2 ^ n := by
  induction n with
  | zero => simp [beBits, val, Nat.mod_one]
  | succ n ih => rw [beBits, val_cons, ih, beBits_length, Nat.toNat_testBit, Nat.mod_pow_succ]; ring

theorem val_beBits_of_lt {n v : Nat} (h : v < 2 ^ n) : val (beBits n v) = v := by
  rw [val_beBits, Nat.mod_eq_of_lt h]

theorem flatten_groupsOf (k n : Nat) (s : List α) : (groupsOf k n s).flatten = s.take (k * n) := by
  induction n generalizing s with
  | zero => simp [groupsOf]
  | succ n ih => rw [groupsOf, List.flatten_cons, ih, Nat.mul_succ, Nat.add_comm, List.take_add]

/-- Where the sequence has n whole groups, each of the n groups has k elements. -/
theorem length_of_mem_groupsOf {n : Nat} {s : List α} (h : k * n ≤ s.length) :
    ∀ g ∈ groupsOf k n s, g.length = k := by
  induction n generalizing s with
  | zero => simp [groupsOf]
  | succ n ih =>
    rw [Nat.mul_succ] at h
    have htail : k * n ≤ (s.drop k).length := by rw [List.length_drop]; omega
    simp only [groupsOf, List.forall_mem_cons]
    exact ⟨by rw [List.length_take]; omega, ih htail⟩

theorem length_flatten_of_groups {l : List (List α)} (h : ∀ g ∈ l, g.length = k) : l.flatten.length = k * l.length := by
  rw [List.length_flatten, List.map_congr_left h, List.map_const', List.sum_replicate, smul_eq_mul, Nat.mul_comm]

/-- Grouping undoes the concatenation of groups. -/
theorem groupsOf_flatten {l : List (List α)} (h : ∀ g ∈ l, g.length = k) : groupsOf k l.length l.flatten = l := by
  induction l with
  | nil => rfl
  | cons g l ih =>
    obtain ⟨hg, hl⟩ := List.forall_mem_cons.mp h
    rw [List.length_cons, groupsOf, List.flatten_cons, List.take_left' hg, List.drop_left' hg, ih hl]

theorem complete_flatten {l : List (List α)} (hk : 0 < k) (h : ∀ g ∈ l, g.length = k) : complete k l.flatten = l := by
  rw [complete, length_flatten_of_groups h, Nat.mul_div_cancel_left _ hk, groupsOf_flatten h]

theorem nbytes_eq (b : BitSeq) : nbytes b = (b.length + 7) / 8 := by simp [nbytes, ceilDiv]

theorem length_le_nbytes (b : BitSeq) : b.length ≤ 8 * nbytes b := by rw [nbytes_eq]; omega

/-- R47: the payload, followed by zeros up to a whole byte. -/
def padToBytes (b : BitSeq) : BitSeq := b ++ zeros (8 * nbytes b - b.length)

theorem padToBytes_length (b : BitSeq) : (padToBytes b).length = 8 * nbytes b := by
  have := length_le_nbytes b
  simp only [padToBytes, zeros, List.length_append, List.length_replicate]
  omega

theorem chunkPad_eq (b : BitSeq) : chunkPad b = groupsOf 8 (nbytes b) (padToBytes b) := rfl

theorem flatten_chunkPad (b : BitSeq) : (chunkPad b).flatten = padToBytes b := by
  rw [chunkPad_eq, flatten_groupsOf, ← padToBytes_length, List.take_length]

theorem length_of_mem_chunkPad (b : BitSeq) : ∀ g ∈ chunkPad b, g.length = 8 :=
  length_of_mem_groupsOf (padToBytes_length b).ge

theorem partialUnit_eq_decide (unit n : Nat) : partialUnit unit n = decide (n % unit ≠ 0) := by
  rw [partialUnit, decide_not]
  rfl

end Sequences

/-! ## Bit stuffing -/

section BitStuffing

/-- R114's loop, from any output so far and any run of 1s. -/
theorem foldl_stuffOne (b out : BitSeq) (ones : Nat) : (b.foldl stuffOne (out, ones)).1 = out ++ bitStuff ones b := by
  induction b generalizing out ones with
  | nil => simp [bitStuff]
  | cons x b ih =>
    cases x with
    | false => simp [stuffOne, bitStuff, ih]
    | true => by_cases h : ones + 1 = 5 <;> simp [stuffOne, bitStuff, h, ih]

theorem stuffedBody_eq (b : BitSeq) : stuffedBody b = bitStuff 0 b := foldl_stuffOne b [] 0

/-- R116's loop, from any output so far and any run of 1s. -/
theorem foldl_unstuffOne (b out : BitSeq) (ones : Nat) :
    (b.foldl unstuffOne (out, ones)).1 = out ++ bitUnstuff ones b := by
  induction b generalizing out ones with
  | nil => simp [bitUnstuff]
  | cons x b ih =>
    cases x with
    | true => simp [unstuffOne, bitUnstuff, ih]
    | false => by_cases h : ones = 5 <;> simp [unstuffOne, bitUnstuff, h, ih]

theorem unstuffedBody_eq (b : BitSeq) : unstuffedBody b = bitUnstuff 0 b := foldl_unstuffOne b [] 0

/-- Encoder and decoder count the same run of 1s, so the decoder drops just the 0s that the encoder stuffed. -/
theorem bitUnstuff_bitStuff (b : BitSeq) {ones : Nat} (h : ones < 5) : bitUnstuff ones (bitStuff ones b) = b := by
  induction b generalizing ones with
  | nil => rfl
  | cons x b ih =>
    cases x with
    | false => simp [bitStuff, bitUnstuff, h.ne, ih]
    | true =>
      by_cases hfull : ones + 1 = 5
      · simp [bitStuff, bitUnstuff, hfull, ih]
      · simp [bitStuff, bitUnstuff, hfull, ih (ones := ones + 1) (by omega)]

/-- R116: between its two flags, any body is scanned whole. -/
theorem bitDecode_framed (body : BitSeq) : bitDecode (bitFlag ++ body ++ bitFlag) = bitUnstuff 0 body := by
  have hflag : bitFlag.length = 8 := rfl
  have hlen : (bitFlag ++ body ++ bitFlag).length = 8 + body.length + 8 := by
    rw [List.length_append, List.length_append, hflag]
  have hslice : slice (bitFlag ++ body ++ bitFlag) 8 (8 + body.length) = body := by
    rw [slice, List.take_left' (by simp [hflag]), List.drop_left' hflag]
  rw [bitDecode, if_neg (by omega), hlen, Nat.add_sub_cancel, hslice]

theorem bitDecode_bitEncode (b : BitSeq) : bitDecode (bitEncode b) = b := by
  rw [bitEncode, bitDecode_framed, bitUnstuff_bitStuff b (by omega)]

/-- After `ones` 1s, a stuffed body begins with at most as many 1s as make five. -/
theorem bitStuff_leading_ones (b : BitSeq) {ones m : Nat} (h : ones < 5)
    (hpre : List.replicate m true <+: bitStuff ones b) : ones + m ≤ 5 := by
  induction b generalizing ones m with
  | nil =>
    have := hpre.length_le
    simp only [bitStuff, List.length_replicate, List.length_nil] at this
    omega
  | cons x b ih =>
    cases m with
    | zero => omega
    | succ m =>
      cases x with
      | false => simp [bitStuff, List.replicate_succ] at hpre
      | true =>
        by_cases hfull : ones + 1 = 5
        · cases m with
          | zero => omega
          | succ m => simp [bitStuff, hfull, List.replicate_succ] at hpre
        · simp only [bitStuff, hfull, if_false, List.replicate_succ, List.cons_prefix_cons, true_and] at hpre
          have := ih (by omega) hpre
          omega

/-- R115: six 1s in a row would begin somewhere in the body, and no suffix of it begins with six. -/
theorem bitStuff_no_six_ones (b : BitSeq) {ones : Nat} (h : ones < 5) :
    ¬ List.replicate 6 true <:+: bitStuff ones b := by
  induction b generalizing ones with
  | nil => simp [bitStuff]
  | cons x b ih =>
    have hhead : ¬ List.replicate 6 true <+: bitStuff ones (x :: b) := fun hpre => by
      have := bitStuff_leading_ones _ h hpre
      omega
    cases x with
    | false =>
      rw [bitStuff] at hhead ⊢
      simp only [List.infix_cons_iff, hhead, ih (ones := 0) (by omega), or_self, not_false_eq_true]
    | true =>
      by_cases hfull : ones + 1 = 5
      · have hzero : ¬ List.replicate 6 true <+: false :: bitStuff 0 b := by simp [List.replicate_succ]
        rw [bitStuff, if_pos hfull] at hhead ⊢
        simp only [List.infix_cons_iff, hhead, hzero, ih (ones := 0) (by omega), or_self, not_false_eq_true]
      · rw [bitStuff, if_neg hfull] at hhead ⊢
        simp only [List.infix_cons_iff, hhead, ih (ones := ones + 1) (by omega), or_self, not_false_eq_true]

theorem length_le_bitStuff (b : BitSeq) (ones : Nat) : b.length ≤ (bitStuff ones b).length := by
  induction b generalizing ones with
  | nil => exact Nat.zero_le _
  | cons x b ih =>
    have h0 := ih 0
    have h1 := ih (ones + 1)
    cases x with
    | false => simpa [bitStuff] using h0
    | true => by_cases hfull : ones + 1 = 5 <;> simp [bitStuff, hfull] <;> omega

end BitStuffing

/-! ## Byte stuffing -/

section ByteStuffing

variable {p : Params}

/-- R108's loop, from any output so far. -/
theorem foldl_escapeOne (p : Params) (gs : List BitSeq) (out : BitSeq) :
    gs.foldl (escapeOne p) out = out ++ gs.flatMap (bsStuff p) := by
  induction gs generalizing out with
  | nil => simp
  | cons g gs ih =>
    have hone : escapeOne p out g = out ++ bsStuff p g := by
      unfold escapeOne bsStuff
      split <;> simp
    rw [List.foldl_cons, ih, hone, List.flatMap_cons, List.append_assoc]

/-- R110's loop, from any output so far and either value of W.esc. -/
theorem foldl_unescapeOne (p : Params) (gs : List BitSeq) (out : BitSeq) (esc : Bool) :
    (gs.foldl (unescapeOne p) (out, esc)).1 = out ++ bsUnstuff p esc gs := by
  induction gs generalizing out esc with
  | nil => simp [bsUnstuff]
  | cons g gs ih =>
    cases esc with
    | true => simp [unescapeOne, bsUnstuff, ih]
    | false =>
      simp only [List.foldl_cons, unescapeOne, bsUnstuff, Bool.false_eq_true, if_false]
      by_cases hesc : val g = p.esc.toNat
      · simp [hesc, ih]
      · by_cases hflag : val g = p.flag.toNat
        · simp only [if_neg hesc, if_pos hflag, ih]
        · simp [hesc, hflag, ih]

/-- The byte-stuffing operations check FLAG ≠ ESC first (log 13). -/
theorem bsEncode_of_ne (h : p.flag ≠ p.esc) (b : BitSeq) : bsEncode p b = .ok (bsFrame p b, false) := by
  simp [bsEncode, byteStuffingParams, h]

theorem bsDecode_of_ne (h : p.flag ≠ p.esc) (f : BitSeq) :
    bsDecode p f = .ok (bsPayload p f, partialUnit 8 f.length) := by
  simp [bsDecode, byteStuffingParams, h]

theorem val_byte (x : Byte) : val (beBits 8 x.toNat) = x.toNat := val_beBits_of_lt x.isLt

/-- The bytes that stand in a frame for one payload byte. -/
def bsBytes (p : Params) (g : BitSeq) : List BitSeq :=
  if val g = p.flag.toNat ∨ val g = p.esc.toNat then [beBits 8 p.esc.toNat, g] else [g]

theorem flatten_bsBytes (p : Params) (g : BitSeq) : (bsBytes p g).flatten = bsStuff p g := by
  unfold bsBytes bsStuff
  split <;> simp

theorem length_of_mem_bsBytes {g : BitSeq} (hg : g.length = 8) : ∀ x ∈ bsBytes p g, x.length = 8 := by
  unfold bsBytes
  split <;> simp [hg]

/-- The scan drops each stuffed ESC and copies the byte after it. -/
theorem bsUnstuff_flatMap_bsBytes (p : Params) (gs : List BitSeq) :
    bsUnstuff p false (gs.flatMap (bsBytes p)) = gs.flatten := by
  induction gs with
  | nil => rfl
  | cons g gs ih =>
    rw [List.flatMap_cons, List.flatten_cons, bsBytes]
    by_cases hg : val g = p.flag.toNat ∨ val g = p.esc.toNat
    · simp [hg, bsUnstuff, val_byte, ih]
    · obtain ⟨hflag, hesc⟩ := not_or.mp hg
      simp [hflag, hesc, bsUnstuff, ih]

/-- The bytes of a frame: FLAG, the stuffed payload and FLAG. -/
def bsFrameBytes (p : Params) (b : BitSeq) : List BitSeq :=
  [beBits 8 p.flag.toNat] ++ (chunkPad b).flatMap (bsBytes p) ++ [beBits 8 p.flag.toNat]

theorem flatten_bsFrameBytes (p : Params) (b : BitSeq) : (bsFrameBytes p b).flatten = bsFrame p b := by
  have hbody : ((chunkPad b).flatMap (bsBytes p)).flatten = (chunkPad b).flatMap (bsStuff p) := by
    simp [List.flatMap_def, List.flatten_flatten, Function.comp_def, flatten_bsBytes]
  simp [bsFrameBytes, bsFrame, hbody]

theorem length_of_mem_bsFrameBytes (p : Params) (b : BitSeq) : ∀ x ∈ bsFrameBytes p b, x.length = 8 := by
  intro x hx
  simp only [bsFrameBytes, List.mem_append, List.mem_singleton, List.mem_flatMap] at hx
  rcases hx with (rfl | ⟨g, hg, hx⟩) | rfl
  · exact beBits_length 8 _
  · exact length_of_mem_bsBytes (length_of_mem_chunkPad b g hg) x hx
  · exact beBits_length 8 _

/-- A frame is made of whole bytes, so the decoder reads back the bytes it was made of. -/
theorem chunkTrunc_bsFrame (p : Params) (b : BitSeq) : chunkTrunc (bsFrame p b) = bsFrameBytes p b := by
  rw [← flatten_bsFrameBytes]
  exact complete_flatten (by omega) (length_of_mem_bsFrameBytes p b)

theorem partialUnit_bsFrame (p : Params) (b : BitSeq) : partialUnit 8 (bsFrame p b).length = false := by
  rw [← flatten_bsFrameBytes, length_flatten_of_groups (length_of_mem_bsFrameBytes p b)]
  simp [partialUnit]

/-- R112. -/
theorem bsPayload_bsFrame (p : Params) (b : BitSeq) : bsPayload p (bsFrame p b) = padToBytes b := by
  have hlen : ¬ (bsFrameBytes p b).length < 2 := by simp [bsFrameBytes]
  have hbody : ((bsFrameBytes p b).drop 1).dropLast = (chunkPad b).flatMap (bsBytes p) := by simp [bsFrameBytes]
  simp only [bsPayload, chunkTrunc_bsFrame, if_neg hlen, slice_one_pred_length, hbody]
  rw [bsUnstuff_flatMap_bsBytes, flatten_chunkPad]

end ByteStuffing

/-! ## Character count -/

section CharacterCount

theorem ccEncode_of_le {b : BitSeq} (h : nbytes b + 1 ≤ 255) :
    ccEncode b = .ok (beBits 8 (nbytes b + 1) ++ b, false) := by
  simp only [ccEncode, if_neg (Nat.not_lt.mpr h)]

theorem ccEncode_of_lt {b : BitSeq} (h : 255 < nbytes b + 1) :
    ccEncode b = .error ⟨.lengthOverflow, .count (nbytes b + 1)⟩ := by
  simp only [ccEncode, if_pos h]

/-- R104, with the two fields of the frame by take and drop. -/
theorem ccDecode_eq (f : BitSeq) :
    ccDecode f =
      if f.length < 8 then [] else if val (f.take 8) = 0 then [] else (f.drop 8).take ((val (f.take 8) - 1) * 8) := by
  simp only [ccDecode, slice_eq_take_drop, List.drop_zero, Nat.sub_zero, Nat.add_sub_cancel_left]

/-- The count asks for at least the payload, so the decoder takes what is present. -/
theorem ccDecode_frame {b : BitSeq} (h : nbytes b + 1 ≤ 255) : ccDecode (beBits 8 (nbytes b + 1) ++ b) = b := by
  have hhead : (beBits 8 (nbytes b + 1)).length = 8 := beBits_length 8 _
  have hval : val (beBits 8 (nbytes b + 1)) = nbytes b + 1 := val_beBits_of_lt (by omega)
  have hall : b.take (nbytes b * 8) = b := List.take_of_length_le (by have := length_le_nbytes b; omega)
  simp [ccDecode_eq, List.take_left' hhead, List.drop_left' hhead, hval, hall]

end CharacterCount

/-! ## The operations -/

section FramingOperations

variable {s : State}

theorem State.finishAs_ok {α : Type} (s : State) (kind : α → Buf) (a : α) (w : Bool) :
    s.finishAs kind (.ok (a, w)) = { s with warn := s.warn || w, out := kind a, result := .done } := rfl

theorem State.finishAs_silent {α : Type} (s : State) (kind : α → Buf) (a : α) :
    s.finishAs kind (.ok (a, false)) = { s with out := kind a, result := .done } :=
  (s.emit_eq_finishAs kind a).symm

/-- An encoder that answers without a fault, and its decoder on what it left in OUT, handed back as IN. -/
theorem exec_frameDecOf_frameEncOf {f : Framing} {frame payload : BitSeq}
    (henc : frameEncode s.params f s.inBits = .ok (frame, false))
    (hdec : frameDecode s.params f frame = .ok (payload, false)) :
    ∃ t u, exec (frameEncOf f) s = .next t ∧ t.out = .bits frame ∧ exec (frameDecOf f) t.chain = .next u ∧
      u.out = .bits payload ∧ u.warn = s.warn := by
  have hdec' : frameDecode (s.emit (.bits frame)).chain.params f (s.emit (.bits frame)).chain.inBits =
      .ok (payload, false) := hdec
  refine ⟨s.emit (.bits frame), (s.emit (.bits frame)).chain.emit (.bits payload), ?_, rfl, ?_, rfl, rfl⟩
  · rw [exec_frameEncOf, henc, ← State.emit_eq_finishAs]
  · rw [exec_frameDecOf, hdec', ← State.emit_eq_finishAs]

theorem frameDecode_ccFrame (p : Params) {b : BitSeq} (h : nbytes b + 1 ≤ 255) :
    frameDecode p .characterCount (beBits 8 (nbytes b + 1) ++ b) = .ok (b, false) :=
  congrArg (fun x => Except.ok (x, false)) (ccDecode_frame h)

theorem frameDecode_bsFrame {p : Params} (h : p.flag ≠ p.esc) (b : BitSeq) :
    frameDecode p .byteStuffing (bsFrame p b) = .ok (padToBytes b, false) := by
  have hdec := bsDecode_of_ne h (bsFrame p b)
  rwa [bsPayload_bsFrame, partialUnit_bsFrame] at hdec

theorem frameDecode_bitEncode (p : Params) (b : BitSeq) :
    frameDecode p .bitStuffing (bitEncode b) = .ok (b, false) :=
  congrArg (fun x => Except.ok (x, false)) (bitDecode_bitEncode b)

theorem exec_frmBitEnc (s : State) :
    exec .frmBitEnc s =
      .next { s with out := .bits (flagPattern ++ bitStuff 0 s.inBits ++ flagPattern), result := .done } := rfl

end FramingOperations

/-! ## The obligations -/

/-- Settles O7: each loop, with its accumulator general, is the model's recursion. -/
theorem frmBsResults : Obligations.FrmBsResults := by
  unfold Obligations.FrmBsResults
  intro s hne
  constructor
  · refine (exec_frameEncOf s .byteStuffing).trans ?_
    rw [frameEncode, bsEncode_of_ne hne, State.finishAs_silent, foldl_escapeOne, bsFrame]
  · refine (exec_frameDecOf s .byteStuffing).trans ?_
    rw [frameDecode, bsDecode_of_ne hne, State.finishAs_ok, partialUnit_eq_decide, foldl_unescapeOne,
      ← slice_one_pred_length, bsPayload, List.nil_append]

/-- Settles O8: each loop, with its accumulator general, is the model's recursion. -/
theorem frmBitResults : Obligations.FrmBitResults := by
  unfold Obligations.FrmBitResults
  intro s
  constructor
  · rw [exec_frmBitEnc, stuffedBody_eq]
  · refine (exec_frameDecOf s .bitStuffing).trans ?_
    have hbody : s.inBits.length - 8 - 8 = s.inBits.length - 16 := by omega
    rw [frameDecode, State.finishAs_silent, bitDecode, slice_eq_take_drop, hbody, unstuffedBody_eq]

/-- Settles O9: up to 2032 bits the count fits its byte. -/
theorem characterCountRoundTrip : Obligations.CharacterCountRoundTrip := by
  unfold Obligations.CharacterCountRoundTrip
  intro s hlen
  have hcount : nbytes s.inBits + 1 ≤ 255 := by rw [nbytes_eq]; omega
  obtain ⟨t, u, henc, -, hdec, hout, -⟩ :=
    exec_frameDecOf_frameEncOf (f := .characterCount) (ccEncode_of_le hcount) (frameDecode_ccFrame s.params hcount)
  exact ⟨t, u, henc, hdec, hout⟩

/-- Settles O10: a frame is made of whole bytes, and the scan drops just the stuffed ESCs. -/
theorem byteStuffingRoundTrip : Obligations.ByteStuffingRoundTrip := by
  unfold Obligations.ByteStuffingRoundTrip
  intro s hne
  obtain ⟨t, u, henc, -, hdec, hout, hwarn⟩ :=
    exec_frameDecOf_frameEncOf (f := .byteStuffing) (bsEncode_of_ne hne s.inBits) (frameDecode_bsFrame hne s.inBits)
  exact ⟨t, u, henc, hdec, hout, hwarn⟩

/-- Settles O11: the decoder drops just the stuffed 0s. -/
theorem bitStuffingRoundTrip : Obligations.BitStuffingRoundTrip := by
  unfold Obligations.BitStuffingRoundTrip
  intro s
  obtain ⟨t, u, henc, -, hdec, hout, -⟩ :=
    exec_frameDecOf_frameEncOf (s := s) (f := .bitStuffing) rfl (frameDecode_bitEncode s.params s.inBits)
  exact ⟨t, u, henc, hdec, hout⟩

/-- Settles O12: the flag holds six 1s in a row, and a stuffed body never does. -/
theorem stuffedBodyNeverShowsTheFlag : Obligations.StuffedBodyNeverShowsTheFlag := by
  unfold Obligations.StuffedBodyNeverShowsTheFlag
  intro s
  have hsix : ¬ List.replicate 6 true <:+: bitStuff 0 s.inBits := bitStuff_no_six_ones _ (by omega)
  have hflag : List.replicate 6 true <:+: flagPattern := ⟨[false], [false], rfl⟩
  exact ⟨bitStuff 0 s.inBits, exec_frmBitEnc s, hsix, fun h => hsix (hflag.trans h), length_le_bitStuff _ 0⟩

/-- Settles O5, with c the count of the payload's bytes and of the header. -/
theorem frmCcEncResult : Obligations.FrmCcEncResult := by
  unfold Obligations.FrmCcEncResult
  intro s
  rw [← nbytes_eq]
  constructor
  · intro hle
    refine (exec_frameEncOf s .characterCount).trans ?_
    rw [frameEncode, ccEncode_of_le hle, State.finishAs_silent]
  · intro hlt
    refine (exec_frameEncOf s .characterCount).trans ?_
    rw [frameEncode, ccEncode_of_lt hlt]
    rfl

/-- Settles O6: the model's slices are the spec's fields. -/
theorem frmCcDecResult : Obligations.FrmCcDecResult := by
  unfold Obligations.FrmCcDecResult
  intro s
  refine (exec_frameDecOf s .characterCount).trans ?_
  rw [frameDecode, State.finishAs_silent, ccDecode_eq]

/-- Settles O13: the empty payload's three frames, and the round trip of each framing. -/
theorem emptyPayloadRoundTrips : Obligations.EmptyPayloadRoundTrips := by
  unfold Obligations.EmptyPayloadRoundTrips
  intro s hempty hne
  refine ⟨?characterCount, ?byteStuffing, ?bitStuffing⟩
  case characterCount =>
    have hcount : nbytes [] + 1 ≤ 255 := by decide
    have hcc : ccEncode s.inBits = .ok (beBits 8 (nbytes [] + 1) ++ [], false) := by
      rw [hempty]
      exact ccEncode_of_le hcount
    obtain ⟨t, u, henc, hframe, hdec, hout, -⟩ :=
      exec_frameDecOf_frameEncOf (f := .characterCount) hcc (frameDecode_ccFrame s.params hcount)
    exact ⟨t, u, henc, hframe, hdec, hout⟩
  case byteStuffing =>
    have hbs : bsEncode s.params s.inBits = .ok (bsFrame s.params [], false) := by
      rw [hempty]
      exact bsEncode_of_ne hne []
    obtain ⟨t, u, henc, hframe, hdec, hout, -⟩ :=
      exec_frameDecOf_frameEncOf (f := .byteStuffing) hbs (frameDecode_bsFrame hne [])
    exact ⟨t, u, henc, hframe, hdec, hout⟩
  case bitStuffing =>
    have hbit : frameEncode s.params .bitStuffing s.inBits = .ok (bitEncode [], false) := by
      rw [hempty]
      rfl
    obtain ⟨t, u, henc, hframe, hdec, hout, -⟩ :=
      exec_frameDecOf_frameEncOf hbit (frameDecode_bitEncode s.params [])
    exact ⟨t, u, henc, hframe, hdec, hout⟩

end Sys2Proof.Machine
end

section
/-! PROOFS. The family 41_error_control.md. Checksum and CRC are payloads with a trailer, of which one flip changes just
the payload or just the trailer; the CRC's division is linear over GF(2); a Hamming word's controlled sets are read as
binary digits of its positions, so that the syndrome of a single flip is the flipped position. -/

namespace Sys2Proof.Machine

open Sys2Proof.Pseudocode

/-! ## One flipped bit -/

section Flips

variable {b t : BitSeq} {e : Nat}

theorem modify_not_ne (h : e < b.length) : b.modify e not ≠ b := by
  intro heq
  have hbit : (b.modify e not)[e]? = b[e]? := by rw [heq]
  simp [h] at hbit

theorem modify_append_left (h : e < b.length) : (b ++ t).modify e not = b.modify e not ++ t := by
  induction b generalizing e with
  | nil => exact absurd h (Nat.not_lt_zero e)
  | cons x b ih =>
    cases e with
    | zero => rfl
    | succ e => simp [ih (Nat.lt_of_succ_lt_succ h)]

theorem modify_append_right (b t : BitSeq) (e : Nat) : (b ++ t).modify (b.length + e) not = b ++ t.modify e not := by
  induction b with
  | nil => simp
  | cons x b ih => simp [Nat.succ_add, ih]

/-- A flip of a bit flips it back. -/
theorem modify_not_modify_not (b : BitSeq) (e : Nat) : (b.modify e not).modify e not = b := by
  have hnot : not ∘ not = id := funext Bool.not_not
  rw [List.modify_modify_eq, hnot, List.modify_id]

end Flips

/-! ## Payloads with a trailer -/

section Trailers

variable {n : Nat} {f : BitSeq → BitSeq} {b t : BitSeq}

theorem stripLast_eq_take (n : Nat) (b : BitSeq) : stripLast n b = b.take (b.length - n) := rfl

theorem lastBits_eq_drop (n : Nat) (b : BitSeq) : lastBits n b = b.drop (b.length - n) := by
  rw [lastBits, slice, List.take_length]

theorem stripLast_append (h : t.length = n) : stripLast n (b ++ t) = b := by
  rw [stripLast_eq_take, List.length_append, h, Nat.add_sub_cancel, List.take_left]

theorem lastBits_append (h : t.length = n) : lastBits n (b ++ t) = t := by
  rw [lastBits_eq_drop, List.length_append, h, Nat.add_sub_cancel, List.drop_left]

/-- The verdict of R141 and R147: the n-bit trailer `f` of the payload is computed again and compared. -/
def trailerPass (n : Nat) (f : BitSeq → BitSeq) (r : BitSeq) : Bool :=
  decide (n ≤ r.length) && f (stripLast n r) == lastBits n r

theorem trailerPass_eq_decide (n : Nat) (f : BitSeq → BitSeq) (r : BitSeq) :
    trailerPass n f r = decide (n ≤ r.length ∧ f (r.take (r.length - n)) = r.drop (r.length - n)) := by
  rw [trailerPass, stripLast_eq_take, lastBits_eq_drop, Bool.decide_and, Bool.beq_eq_decide_eq]

theorem trailerPass_append (h : t.length = n) : trailerPass n f (b ++ t) = (f b == t) := by
  have hlen : n ≤ (b ++ t).length := by rw [List.length_append, h]; exact Nat.le_add_left n _
  rw [trailerPass, stripLast_append h, lastBits_append h, decide_eq_true hlen, Bool.true_and]

theorem trailerPass_encoded (hlen : (f b).length = n) : trailerPass n f (b ++ f b) = true := by
  rw [trailerPass_append hlen, beq_self_eq_true]

/-- Where every flip in the payload changes the trailer, every flip in the code word is seen: in the payload the trailer
computed again is another one, in the trailer it is the one received that is another. -/
theorem trailerPass_flip (hlen : (f b).length = n) (hf : ∀ e < b.length, f (b.modify e not) ≠ f b) {e : Nat}
    (he : e < (b ++ f b).length) : trailerPass n f ((b ++ f b).modify e not) = false := by
  rcases Nat.lt_or_ge e b.length with hpay | hpay
  · rw [modify_append_left hpay, trailerPass_append hlen]
    exact beq_false_of_ne (hf e hpay)
  · obtain ⟨k, rfl⟩ := Nat.exists_eq_add_of_le hpay
    have hk : k < (f b).length := by rw [List.length_append] at he; omega
    rw [modify_append_right, trailerPass_append (by rw [List.length_modify, hlen])]
    exact beq_false_of_ne (modify_not_ne hk).symm

end Trailers

/-! ## Even parity -/

section Parity

theorem parityBit_cons (x : Bit) (b : BitSeq) : parityBit (x :: b) = (x ^^ parityBit b) := by
  have hsucc (n : Nat) : ((n + 1) % 2 == 1) = !(n % 2 == 1) := by
    rcases Nat.mod_two_eq_zero_or_one n with h | h <;> simp [Nat.add_mod, h]
  cases x with
  | false => simp [parityBit, popcount]
  | true => simp [parityBit, popcount, hsucc]

theorem parityBit_append (b t : BitSeq) : parityBit (b ++ t) = (parityBit b ^^ parityBit t) := by
  induction b with
  | nil => simp [parityBit, popcount]
  | cons x b ih => rw [List.cons_append, parityBit_cons, parityBit_cons, ih, Bool.xor_assoc]

theorem parityBit_modify {b : BitSeq} {e : Nat} (h : e < b.length) : parityBit (b.modify e not) = !parityBit b := by
  induction b generalizing e with
  | nil => exact absurd h (Nat.not_lt_zero e)
  | cons x b ih =>
    cases e with
    | zero => rw [List.modify_zero_cons, parityBit_cons, parityBit_cons, Bool.not_xor]
    | succ e =>
      rw [List.modify_succ_cons, parityBit_cons, parityBit_cons, ih (Nat.lt_of_succ_lt_succ h), Bool.xor_not]

theorem parityPass_eq_not (r : BitSeq) : parityPass r = !parityBit r := by
  rcases Nat.mod_two_eq_zero_or_one (popcount r) with h | h <;> simp [parityPass, parityBit, h]

theorem parityBit_parityEncode (b : BitSeq) : parityBit (parityEncode b) = false := by
  have hone : parityBit [parityBit b] = parityBit b := by rw [parityBit_cons]; exact Bool.xor_false _
  rw [parityEncode, parityBit_append, hone, Bool.xor_self]

theorem parityPass_parityEncode (b : BitSeq) : parityPass (parityEncode b) = true := by
  rw [parityPass_eq_not, parityBit_parityEncode, Bool.not_false]

theorem parityPass_flip {b : BitSeq} {e : Nat} (h : e < (parityEncode b).length) :
    parityPass ((parityEncode b).modify e not) = false := by
  rw [parityPass_eq_not, parityBit_modify h, parityBit_parityEncode, Bool.not_false, Bool.not_true]

theorem popcount_eq (b : BitSeq) : popcount b = b.countP (· = true) := by
  simp only [popcount, Bool.decide_eq_true]
  rfl

end Parity

/-! ## Checksum -/

section Checksum

theorem val_append (b t : BitSeq) : val (b ++ t) = val b * 2 ^ t.length + val t := by
  induction b with
  | nil => simp [val]
  | cons x b ih => rw [List.cons_append, val_cons, val_cons, ih, List.length_append]; ring

theorem val_lt (b : BitSeq) : val b < 2 ^ b.length := by
  induction b with
  | nil => simp [val]
  | cons x b ih =>
    have hx : x.toNat * 2 ^ b.length ≤ 2 ^ b.length := by simpa using Nat.mul_le_mul_right (2 ^ b.length) x.toNat_le
    rw [val_cons, List.length_cons, pow_succ]
    omega

/-- R159: a flip changes the value by a power of two. -/
theorem val_modify {b : BitSeq} {e : Nat} (h : e < b.length) :
    ∃ k, val (b.modify e not) = val b + 2 ^ k ∨ val b = val (b.modify e not) + 2 ^ k := by
  induction b generalizing e with
  | nil => exact absurd h (Nat.not_lt_zero e)
  | cons x b ih =>
    cases e with
    | zero =>
      refine ⟨b.length, ?_⟩
      cases x <;> simp [val_cons, Nat.add_comm]
    | succ e =>
      obtain ⟨k, hk⟩ := ih (Nat.lt_of_succ_lt_succ h)
      refine ⟨k, ?_⟩
      rw [List.modify_succ_cons, val_cons, val_cons, List.length_modify]
      omega

/-- R140: the running sum is addition modulo 0xFFFF. -/
theorem csumFold_modEq (ws : List BitSeq) (sum : Nat) : csumFold sum ws ≡ sum + (ws.map val).sum [MOD 65535] := by
  induction ws generalizing sum with
  | nil => exact Nat.ModEq.refl _
  | cons w ws ih =>
    have hcarry : (if 0xFFFF < sum + val w then (sum + val w) % 0x10000 + (sum + val w) / 0x10000 else sum + val w) ≡
        sum + val w [MOD 65535] := by
      unfold Nat.ModEq
      split <;> omega
    rw [List.map_cons, List.sum_cons, ← Nat.add_assoc]
    exact (ih _).trans (hcarry.add_right _)

/-- The end-around carry keeps the running sum in 16 bits. -/
theorem csumFold_le {ws : List BitSeq} {sum : Nat} (hsum : sum ≤ 0xFFFF) (hws : ∀ w ∈ ws, w.length = 16) :
    csumFold sum ws ≤ 0xFFFF := by
  induction ws generalizing sum with
  | nil => exact hsum
  | cons w ws ih =>
    obtain ⟨hw, hws⟩ := List.forall_mem_cons.mp hws
    have hval : val w < 2 ^ 16 := hw ▸ val_lt w
    refine ih ?_ hws
    split <;> omega

/-- 2^16 is 1 modulo 0xFFFF, so words add up to the value of the whole. -/
theorem val_flatten_modEq {ws : List BitSeq} (hws : ∀ w ∈ ws, w.length = 16) :
    (ws.map val).sum ≡ val ws.flatten [MOD 65535] := by
  induction ws with
  | nil => exact Nat.ModEq.refl _
  | cons w ws ih =>
    obtain ⟨-, htail⟩ := List.forall_mem_cons.mp hws
    have hpow : 2 ^ ws.flatten.length ≡ 1 [MOD 65535] := by
      rw [length_flatten_of_groups htail, pow_mul]
      exact Nat.ModEq.trans (Nat.ModEq.pow _ (by decide : 2 ^ 16 ≡ 1 [MOD 65535])) (by rw [one_pow])
    have hw : val w ≡ val w * 2 ^ ws.flatten.length [MOD 65535] := by
      simpa using (hpow.mul_left (val w)).symm
    rw [List.map_cons, List.sum_cons, List.flatten_cons, val_append]
    exact hw.add (ih htail)

theorem pad16_length (b : BitSeq) : (pad16 b).length = 16 * ((b.length + 15) / 16) := by
  simp only [pad16, zeros, List.length_append, List.length_replicate]
  omega

theorem complete_pad16 (b : BitSeq) :
    complete 16 (pad16 b) = groupsOf 16 ((b.length + 15) / 16) (pad16 b) := by
  rw [complete, pad16_length, Nat.mul_div_cancel_left _ (by omega)]

theorem length_of_mem_complete_pad16 (b : BitSeq) : ∀ w ∈ complete 16 (pad16 b), w.length = 16 := by
  rw [complete_pad16]
  exact length_of_mem_groupsOf (pad16_length b).ge

theorem flatten_complete_pad16 (b : BitSeq) : (complete 16 (pad16 b)).flatten = pad16 b := by
  rw [complete_pad16, flatten_groupsOf, ← pad16_length, List.take_length]

theorem csumFold_pad16_modEq (b : BitSeq) : csumFold 0 (complete 16 (pad16 b)) ≡ val (pad16 b) [MOD 65535] := by
  have hsum := csumFold_modEq (complete 16 (pad16 b)) 0
  have hval := val_flatten_modEq (length_of_mem_complete_pad16 b)
  rw [Nat.zero_add] at hsum
  rw [flatten_complete_pad16] at hval
  exact hsum.trans hval

/-- Equal checksums are equal values modulo 0xFFFF. -/
theorem val_pad16_modEq_of_csum16_eq {b b' : BitSeq} (h : csum16 b = csum16 b') :
    val (pad16 b) ≡ val (pad16 b') [MOD 65535] := by
  have hle := csumFold_le (Nat.zero_le _) (length_of_mem_complete_pad16 b)
  have hle' := csumFold_le (Nat.zero_le _) (length_of_mem_complete_pad16 b')
  have hfold : csumFold 0 (complete 16 (pad16 b)) = csumFold 0 (complete 16 (pad16 b')) := by
    unfold csum16 at h
    omega
  exact (csumFold_pad16_modEq b).symm.trans (hfold ▸ csumFold_pad16_modEq b')

theorem not_add_two_pow_modEq (v k : Nat) : ¬ v + 2 ^ k ≡ v [MOD 65535] := by
  intro h
  have hdvd : 65535 ∣ 2 ^ k := (Nat.modEq_zero_iff_dvd).mp (Nat.ModEq.add_left_cancel' v h)
  have hthree : 3 ∣ 2 := Nat.prime_three.dvd_of_dvd_pow (dvd_trans (by decide) hdvd)
  omega

theorem pad16_modify {b : BitSeq} {e : Nat} (h : e < b.length) : pad16 (b.modify e not) = (pad16 b).modify e not := by
  rw [pad16, pad16, List.length_modify, modify_append_left h]

/-- R159: no power of two is 0 modulo 0xFFFF, so a flip changes the checksum. -/
theorem csum16_modify_ne {b : BitSeq} {e : Nat} (h : e < b.length) : csum16 (b.modify e not) ≠ csum16 b := by
  intro heq
  have hmod := val_pad16_modEq_of_csum16_eq heq
  have hpad : e < (pad16 b).length := by rw [pad16_length]; omega
  obtain ⟨k, hk⟩ := val_modify hpad
  rw [pad16_modify h] at hmod
  rcases hk with hk | hk
  · exact not_add_two_pow_modEq _ k (hk ▸ hmod)
  · exact not_add_two_pow_modEq _ k (hk ▸ hmod.symm)

theorem csum16_lt (b : BitSeq) : csum16 b < 2 ^ 16 := by unfold csum16; omega

/-- The trailer of R139: the checksum in 16 bits. -/
def checksumField (b : BitSeq) : BitSeq := beBits 16 (csum16 b)

theorem checksumField_length (b : BitSeq) : (checksumField b).length = 16 := beBits_length 16 _

theorem checksumEncode_eq (b : BitSeq) : checksumEncode b = b ++ checksumField b := rfl

theorem checksumPass_eq (r : BitSeq) : checksumPass r = trailerPass 16 checksumField r := rfl

theorem checksumField_modify_ne {b : BitSeq} {e : Nat} (h : e < b.length) :
    checksumField (b.modify e not) ≠ checksumField b := by
  intro heq
  have hval := congrArg val heq
  rw [checksumField, checksumField, val_beBits_of_lt (csum16_lt _), val_beBits_of_lt (csum16_lt _)] at hval
  exact csum16_modify_ne h hval

theorem checksumPass_checksumEncode (b : BitSeq) : checksumPass (checksumEncode b) = true := by
  rw [checksumPass_eq, checksumEncode_eq, trailerPass_encoded (checksumField_length b)]

theorem checksumPass_flip {b : BitSeq} {e : Nat} (h : e < (checksumEncode b).length) :
    checksumPass ((checksumEncode b).modify e not) = false := by
  rw [checksumEncode_eq] at h ⊢
  exact trailerPass_flip (checksumField_length b) (fun _ => checksumField_modify_ne) h

theorem groupsOf_eq_map {α : Type} (k n : Nat) (s : List α) :
    groupsOf k n s = (List.range n).map fun i => (s.drop (k * i)).take k := by
  induction n generalizing s with
  | zero => rfl
  | succ n ih =>
    simp [groupsOf, List.range_succ_eq_map, ih, List.drop_drop, Nat.mul_succ, Nat.add_comm]

theorem words16_eq (b : BitSeq) : words16 b = complete 16 (pad16 b) := by
  rw [complete_pad16, groupsOf_eq_map, words16]

/-- R138's loop, from any running sum. -/
theorem foldl_sumOne (ws : List BitSeq) (sum : Nat) : ws.foldl sumOne sum = csumFold sum ws := by
  induction ws generalizing sum with
  | nil => rfl
  | cons w ws ih => exact ih _

theorem csum_eq (b : BitSeq) : csum b = csum16 b := by rw [csum, words16_eq, foldl_sumOne, csum16]

end Checksum

/-! ## CRC: the division is linear -/

section Crc

/-- The exclusive-or of two sequences of one length: the sum of polynomials over GF(2) (R149). -/
def xorBits (w v : BitSeq) : BitSeq := List.zipWith xor w v

theorem xorBits_length {w v : BitSeq} (h : w.length = v.length) : (xorBits w v).length = v.length := by
  rw [xorBits, List.length_zipWith, h, Nat.min_self]

theorem xorBits_comm (w v : BitSeq) : xorBits w v = xorBits v w := List.zipWith_comm_of_comm Bool.xor_comm

theorem zeros_length (n : Nat) : (zeros n).length = n := List.length_replicate

theorem xorBits_self (w : BitSeq) : xorBits w w = zeros w.length := by simp [xorBits, zeros]

theorem xorBits_zeros (w : BitSeq) : xorBits w (zeros w.length) = w := by
  induction w with
  | nil => rfl
  | cons x w ih => simpa [xorBits, zeros, List.replicate_succ] using ih

theorem xorBits_append {a b : BitSeq} (h : a.length = b.length) (c d : BitSeq) :
    xorBits (a ++ c) (b ++ d) = xorBits a b ++ xorBits c d := List.zipWith_append h

theorem xorBits_cancel_left {w v : BitSeq} (h : w.length = v.length) : xorBits w (xorBits w v) = v := by
  induction w generalizing v with
  | nil => rw [List.length_eq_zero_iff.mp h.symm]; rfl
  | cons x w ih =>
    obtain ⟨y, v, rfl⟩ := List.exists_cons_of_length_eq_add_one h.symm
    simpa [xorBits] using ih (Nat.succ.inj h)

/-- A flip of one bit is the exclusive-or with the word that holds a 1 there alone. -/
theorem modify_not_eq_xorBits (b : BitSeq) (e : Nat) :
    b.modify e not = xorBits b ((zeros b.length).modify e not) := by
  induction b generalizing e with
  | nil => simp [xorBits, zeros]
  | cons x b ih =>
    cases e with
    | zero => simpa [xorBits, zeros, List.replicate_succ] using (xorBits_zeros b).symm
    | succ e => simpa [xorBits, zeros, List.replicate_succ] using ih e

theorem xorFront_nil (w : BitSeq) : xorFront [] w = w := by cases w <;> rfl

theorem xorFront_length (g w : BitSeq) : (xorFront g w).length = w.length := by
  induction w generalizing g with
  | nil => cases g <;> rfl
  | cons x w ih => cases g <;> simp [xorFront, ih]

theorem xorBits_xorFront (g w v : BitSeq) :
    xorBits (xorFront g w) v = xorFront g (xorBits w v) := by
  induction w generalizing g v with
  | nil => cases g <;> simp [xorFront, xorBits]
  | cons x w ih =>
    cases g with
    | nil => cases v <;> simp [xorFront, xorBits]
    | cons y g =>
      cases v with
      | nil => simp [xorFront, xorBits]
      | cons z v => simpa [xorFront, xorBits] using ih g v

theorem xorFront_xorFront (g w : BitSeq) : xorFront g (xorFront g w) = w := by
  induction w generalizing g with
  | nil => cases g <;> rfl
  | cons x w ih => cases g <;> simp [xorFront, ih]

theorem xorFront_append {g w : BitSeq} (h : g.length ≤ w.length) (v : BitSeq) :
    xorFront g (w ++ v) = xorFront g w ++ v := by
  induction w generalizing g with
  | nil =>
    obtain rfl := List.length_eq_zero_iff.mp (Nat.le_zero.mp h)
    cases v <;> rfl
  | cons x w ih =>
    cases g with
    | nil => rfl
    | cons y g => simp [xorFront, ih (Nat.le_of_succ_le_succ h)]

theorem xorFront_concat {g w : BitSeq} (h : g.length = w.length) (y x : Bit) :
    xorFront (g ++ [y]) (w ++ [x]) = xorFront g w ++ [y ^^ x] := by
  induction w generalizing g with
  | nil => rw [List.length_eq_zero_iff.mp h]; rfl
  | cons z w ih =>
    obtain ⟨u, g, rfl⟩ := List.exists_cons_of_length_eq_add_one h
    simp [xorFront, ih (Nat.succ.inj h)]

/-- The generator without its leading 1 (R143). -/
def crcTail : BitSeq := crcGen.tail

theorem crcGen_eq : crcGen = true :: crcTail := by decide

theorem crcTail_length : crcTail.length = 32 := by decide

/-- One division step of R144: the leading bit is passed over, and where it was 1 the rest of GEN goes into what is
left. -/
def crcStep (x : Bit) (w : BitSeq) : BitSeq := if x then xorFront crcTail w else w

theorem crcDivide_cons (n : Nat) (x : Bit) (w : BitSeq) : crcDivide (n + 1) (x :: w) = crcDivide n (crcStep x w) := by
  cases x <;> simp [crcDivide, crcStep, crcGen_eq, xorFront]

theorem crcStep_length (x : Bit) (w : BitSeq) : (crcStep x w).length = w.length := by
  cases x <;> simp [crcStep, xorFront_length]

theorem crcStep_xorBits (x y : Bit) (w v : BitSeq) :
    crcStep (x ^^ y) (xorBits w v) = xorBits (crcStep x w) (crcStep y v) := by
  have hright (v : BitSeq) : xorBits w (xorFront crcTail v) = xorFront crcTail (xorBits w v) := by
    rw [xorBits_comm, xorBits_xorFront, xorBits_comm]
  cases x <;> cases y
  · rfl
  · exact (hright v).symm
  · exact (xorBits_xorFront crcTail w v).symm
  · have hboth : xorBits (xorFront crcTail w) (xorFront crcTail v) = xorBits w v := by
      rw [xorBits_xorFront, hright, xorFront_xorFront]
    exact hboth.symm

theorem crcStep_append (x : Bit) {w : BitSeq} (h : 32 ≤ w.length) (v : BitSeq) :
    crcStep x (w ++ v) = crcStep x w ++ v := by
  cases x with
  | false => rfl
  | true => exact xorFront_append (crcTail_length ▸ h) v

theorem crcDivide_length {n : Nat} {w : BitSeq} (h : n ≤ w.length) : (crcDivide n w).length = w.length - n := by
  induction n generalizing w with
  | zero => rfl
  | succ n ih =>
    obtain ⟨x, w, rfl⟩ := List.exists_cons_of_length_pos (by omega : 0 < w.length)
    rw [List.length_cons] at h
    rw [crcDivide_cons, ih (by rw [crcStep_length]; omega), crcStep_length, List.length_cons]
    omega

/-- Division is linear over GF(2). -/
theorem crcDivide_xorBits {n : Nat} {w v : BitSeq} (hlen : w.length = v.length) (h : n ≤ w.length) :
    crcDivide n (xorBits w v) = xorBits (crcDivide n w) (crcDivide n v) := by
  induction n generalizing w v with
  | zero => rfl
  | succ n ih =>
    obtain ⟨x, w, rfl⟩ := List.exists_cons_of_length_pos (by omega : 0 < w.length)
    obtain ⟨y, v, rfl⟩ := List.exists_cons_of_length_pos (by omega : 0 < v.length)
    simp only [List.length_cons] at hlen h
    have hcons : xorBits (x :: w) (y :: v) = (x ^^ y) :: xorBits w v := rfl
    rw [hcons, crcDivide_cons, crcDivide_cons, crcDivide_cons, crcStep_xorBits]
    exact ih (by rw [crcStep_length, crcStep_length]; omega) (by rw [crcStep_length]; omega)

/-- The n steps see only the first n + 32 bits. -/
theorem crcDivide_append {n : Nat} {w : BitSeq} (h : n + 32 ≤ w.length) (v : BitSeq) :
    crcDivide n (w ++ v) = crcDivide n w ++ v := by
  induction n generalizing w with
  | zero => rfl
  | succ n ih =>
    obtain ⟨x, w, rfl⟩ := List.exists_cons_of_length_pos (by omega : 0 < w.length)
    rw [List.length_cons] at h
    rw [List.cons_append, crcDivide_cons, crcDivide_cons, crcStep_append x (by omega),
      ih (by rw [crcStep_length]; omega)]

theorem crcDivide_zeros_append (n : Nat) (w : BitSeq) : crcDivide n (zeros n ++ w) = w := by
  induction n with
  | zero => rfl
  | succ n ih => exact (crcDivide_cons n false (zeros n ++ w)).trans ih

theorem crcDivide_add (m n : Nat) (w : BitSeq) : crcDivide (m + n) w = crcDivide n (crcDivide m w) := by
  induction m generalizing w with
  | zero => rw [Nat.zero_add]; rfl
  | succ m ih => rw [Nat.add_right_comm]; exact ih _

theorem crc32_length (b : BitSeq) : (crc32 b).length = 32 := by
  rw [crc32, crcDivide_length (by simp), List.length_append, zeros_length, Nat.add_sub_cancel_left]

theorem crcEncode_length (b : BitSeq) : (crcEncode b).length = b.length + 32 := by
  rw [crcEncode, List.length_append, crc32_length]

/-- Dividing the payload with 32 bits behind it leaves the CRC, exclusive-ored with these bits. -/
theorem crcDivide_payload_append (b : BitSeq) {r : BitSeq} (hr : r.length = 32) :
    crcDivide b.length (b ++ r) = xorBits (crc32 b) r := by
  have hsum : b ++ r = xorBits (b ++ zeros 32) (zeros b.length ++ r) := by
    have hright : xorBits (zeros 32) r = r := by rw [xorBits_comm, ← hr, xorBits_zeros]
    rw [xorBits_append (zeros_length _).symm, xorBits_zeros, hright]
  have hlen : (b ++ zeros 32).length = (zeros b.length ++ r).length := by simp [zeros_length, hr]
  rw [hsum, crcDivide_xorBits hlen (by simp), crcDivide_zeros_append, crc32]

/-- R149: the code word is divisible by the generator. -/
theorem crc32_crcEncode (b : BitSeq) : crc32 (crcEncode b) = zeros 32 := by
  have hlen := crcEncode_length b
  have hzero : crcDivide b.length (crcEncode b) = zeros 32 := by
    rw [crcEncode, crcDivide_payload_append b (crc32_length b), xorBits_self, crc32_length]
  rw [crc32, hlen, crcDivide_add, crcDivide_append hlen.ge, hzero, crcDivide_zeros_append]

/-- One step keeps a remainder that is not zero: with a leading 0 it is a shift, and with a leading 1 the last bit is the
generator's constant term. -/
theorem crcStep_ne_zeros {x : Bit} {w : BitSeq} (hlen : w.length = 31) (h : x :: w ≠ zeros 32) :
    crcStep x (w ++ [false]) ≠ zeros 32 := by
  intro hzero
  cases x with
  | false =>
    have hw : w ++ [false] = zeros 31 ++ [false] := hzero
    exact h (congrArg (false :: ·) (List.append_cancel_right hw))
  | true =>
    have hsplit : crcTail = crcTail.dropLast ++ [true] := by decide
    have hlen' : crcTail.dropLast.length = w.length := by rw [hlen]; decide
    have hconcat : xorFront crcTail.dropLast w ++ [true ^^ false] = zeros 31 ++ [false] := by
      rw [← xorFront_concat hlen', ← hsplit]
      exact hzero
    exact absurd (List.append_inj_right' hconcat rfl) (by decide)

/-- A remainder that is not zero stays so under multiplication by a power of x. -/
theorem crcDivide_append_zeros_ne {w : BitSeq} (hlen : w.length = 32) (h : w ≠ zeros 32) (n : Nat) :
    crcDivide n (w ++ zeros n) ≠ zeros 32 := by
  induction n generalizing w with
  | zero => simpa [zeros, crcDivide] using h
  | succ n ih =>
    obtain ⟨x, w, rfl⟩ := List.exists_cons_of_length_eq_add_one hlen
    have hw : w.length = 31 := Nat.succ.inj hlen
    have hsplit : w ++ zeros (n + 1) = (w ++ [false]) ++ zeros n := by
      rw [List.append_assoc]
      rfl
    have hfull : (w ++ [false]).length = 32 := by rw [List.length_append, hw]; rfl
    rw [List.cons_append, crcDivide_cons, hsplit, crcStep_append x hfull.ge]
    exact ih (by rw [crcStep_length, hfull]) (crcStep_ne_zeros hw h)

/-- R149: a single 1 is not divisible by the generator. -/
theorem crc32_single_ne {n e : Nat} (h : e < n) : crc32 ((zeros n).modify e not) ≠ zeros 32 := by
  obtain ⟨k, rfl⟩ := Nat.exists_eq_add_of_lt h
  have hword : (zeros (e + k + 1)).modify e not ++ zeros 32 = zeros e ++ ((true :: zeros 31) ++ zeros (k + 1)) := by
    have hsplit : zeros (e + k + 1) = zeros e ++ zeros (k + 1) := by
      rw [zeros, zeros, zeros, List.replicate_append_replicate, Nat.add_assoc]
    have hflip : (zeros e ++ zeros (k + 1)).modify e not = zeros e ++ (zeros (k + 1)).modify 0 not := by
      simpa [zeros_length] using modify_append_right (zeros e) (zeros (k + 1)) 0
    have hshift : zeros k ++ zeros 32 = zeros 31 ++ zeros (k + 1) := by
      simp only [zeros, List.replicate_append_replicate]
      congr 1
      omega
    rw [hsplit, hflip, List.append_assoc]
    exact congrArg (fun t => zeros e ++ true :: t) hshift
  have hlen : ((zeros (e + k + 1)).modify e not).length = e + (k + 1) := by
    rw [List.length_modify, zeros_length, Nat.add_assoc]
  rw [crc32, hword, hlen, crcDivide_add, crcDivide_zeros_append]
  exact crcDivide_append_zeros_ne rfl (by decide) (k + 1)

/-- The CRC is linear over GF(2). -/
theorem crc32_xorBits {b d : BitSeq} (h : b.length = d.length) :
    crc32 (xorBits b d) = xorBits (crc32 b) (crc32 d) := by
  have hword : xorBits b d ++ zeros 32 = xorBits (b ++ zeros 32) (d ++ zeros 32) := by
    rw [xorBits_append h, xorBits_self, zeros_length]
  rw [crc32, crc32, crc32, xorBits_length h, hword, crcDivide_xorBits (by simp [h]) (by simp [h]), h]

/-- R149: so a flip in the payload changes the CRC. -/
theorem crc32_modify_ne {b : BitSeq} {e : Nat} (h : e < b.length) : crc32 (b.modify e not) ≠ crc32 b := by
  intro heq
  have hlen : b.length = ((zeros b.length).modify e not).length := by rw [List.length_modify, zeros_length]
  rw [modify_not_eq_xorBits, crc32_xorBits hlen] at heq
  have hcancel := congrArg (xorBits (crc32 b)) heq
  rw [xorBits_cancel_left (by rw [crc32_length, crc32_length]), xorBits_self, crc32_length] at hcancel
  exact crc32_single_ne h hcancel

theorem crcPass_eq (r : BitSeq) : crcPass r = trailerPass 32 crc32 r := rfl

theorem crcPass_crcEncode (b : BitSeq) : crcPass (crcEncode b) = true := by
  rw [crcPass_eq, crcEncode, trailerPass_encoded (crc32_length b)]

theorem crcPass_flip {b : BitSeq} {e : Nat} (h : e < (crcEncode b).length) :
    crcPass ((crcEncode b).modify e not) = false :=
  trailerPass_flip (crc32_length b) (fun _ => crc32_modify_ne) h

end Crc

/-! ## CRC: R144's loop -/

section CrcLoop

theorem gen_eq : gen = crcGen := by decide

theorem xorFront_eq_mapIdx (g w : BitSeq) : xorFront g w = w.mapIdx fun n x => x ^^ g.getD n false := by
  induction w generalizing g with
  | nil => cases g <;> rfl
  | cons x w ih =>
    cases g with
    | nil => simpa [List.mapIdx_cons, xorFront_nil] using ih []
    | cons y g => simp [xorFront, List.mapIdx_cons, ih, Bool.xor_comm]

/-- One pass of R144's loop: the leading bit of what is left becomes 0, the bits passed over stay. -/
theorem divideAt_append (p : BitSeq) (x : Bit) (w : BitSeq) :
    divideAt (p ++ x :: w) p.length = p ++ false :: crcStep x w := by
  have hbit : (p ++ x :: w).getD p.length false = x := by simp
  cases x with
  | false => rw [divideAt, hbit, if_neg Bool.false_ne_true]; rfl
  | true =>
    have hfront : xorFront crcGen (true :: w) = false :: crcStep true w := by rw [crcGen_eq]; rfl
    rw [divideAt, hbit, if_pos rfl, List.mapIdx_append, ← hfront, xorFront_eq_mapIdx]
    congr 1
    · refine List.ext_getElem (by simp) fun n hn hn' => ?_
      have hout : ¬ p.length ≤ n := Nat.not_le.mpr hn'
      simp [hout]
    · congr 1
      funext n y
      have hwindow : (p.length ≤ n + p.length ∧ n + p.length ≤ p.length + 32) ↔ n ≤ 32 := by omega
      rw [gen_eq, Nat.add_sub_cancel, if_congr hwindow rfl rfl]
      by_cases hn : n ≤ 32
      · rw [if_pos hn]
      · have hgen : crcGen.length ≤ n := by rw [crcGen_eq, List.length_cons, crcTail_length]; omega
        rw [if_neg hn, List.getD_eq_default _ _ hgen, Bool.xor_false]

/-- R144's loop, from any bits passed over. -/
theorem foldl_divideAt {n : Nat} (p : BitSeq) {w : BitSeq} (h : n ≤ w.length) :
    (List.range' p.length n).foldl divideAt (p ++ w) = p ++ zeros n ++ crcDivide n w := by
  induction n generalizing p w with
  | zero => simp [zeros, crcDivide]
  | succ n ih =>
    obtain ⟨x, w, rfl⟩ := List.exists_cons_of_length_pos (by omega : 0 < w.length)
    have hnext := ih (p ++ [false]) (w := crcStep x w) (by rw [crcStep_length]; exact Nat.le_of_succ_le_succ h)
    rw [List.length_append, List.append_assoc, List.append_assoc, List.append_assoc] at hnext
    rw [List.range'_succ, List.foldl_cons, divideAt_append, crcDivide_cons, List.append_assoc]
    exact hnext

theorem crc_eq (b : BitSeq) : crc b = crc32 b := by
  have hloop := foldl_divideAt [] (n := b.length) (w := b ++ zeros 32) (by simp)
  rw [List.length_nil, ← List.range_eq_range', List.nil_append, List.nil_append] at hloop
  rw [crc, hloop, List.drop_left' (zeros_length _), crc32]

end CrcLoop

/-! ## Hamming: positions -/

section HammingPositions

theorem isParityPos_iff {j : Nat} : isParityPos j = true ↔ ∃ i, j = 2 ^ i := by
  rw [isParityPos, beq_iff_eq]
  constructor
  · exact fun h => ⟨_, h⟩
  · rintro ⟨i, rfl⟩
    rw [Nat.log2_two_pow]

theorem isParityPos_two_pow (i : Nat) : isParityPos (2 ^ i) = true := isParityPos_iff.mpr ⟨i, rfl⟩

/-- A parity position lies in its own controlled set and in no other (R152). -/
theorem testBit_of_isParityPos {j : Nat} (h : isParityPos j = true) (i : Nat) : j.testBit i = decide (j = 2 ^ i) := by
  obtain ⟨k, rfl⟩ := isParityPos_iff.mp h
  rw [Nat.testBit_two_pow]
  exact decide_eq_decide.mpr (Nat.pow_right_injective (le_refl 2)).eq_iff.symm

/-- C(2^i) holds the positions with binary digit i (R152). -/
theorem and_two_pow_ne_zero (j i : Nat) : j &&& 2 ^ i ≠ 0 ↔ j.testBit i = true := by
  rw [Nat.and_two_pow]
  cases j.testBit i <;> simp

theorem xorOver_cons (i j : Nat) (x : Bit) (c : BitSeq) :
    xorOver (2 ^ i) j (x :: c) = ((j.testBit i && x) ^^ xorOver (2 ^ i) (j + 1) c) := by
  have hset : decide (j &&& 2 ^ i ≠ 0) = j.testBit i := by
    rw [Bool.eq_iff_iff, decide_eq_true_iff, and_two_pow_ne_zero]
  rw [xorOver, hset]

/-- The parity positions up to n among those with a property, as powers of two. -/
theorem filter_isParityPos_perm {n k : Nat} (h : n < 2 ^ k) (f : Nat → Bool) :
    ((List.range' 1 n).filter fun p => isParityPos p && f p).Perm
      (((List.range k).filter fun i => decide (2 ^ i ≤ n) && f (2 ^ i)).map (2 ^ ·)) := by
  have hinj : Function.Injective (2 ^ · : Nat → Nat) := Nat.pow_right_injective (le_refl 2)
  rw [List.perm_ext_iff_of_nodup (List.Nodup.filter _ List.nodup_range') ((List.nodup_range.filter _).map hinj)]
  intro p
  simp only [List.mem_filter, List.mem_range'_1, List.mem_map, List.mem_range, Bool.and_eq_true, decide_eq_true_eq,
    isParityPos_iff]
  constructor
  · rintro ⟨hp, ⟨i, rfl⟩, hf⟩
    have hi : 2 ^ i < 2 ^ k := by omega
    exact ⟨i, ⟨(Nat.pow_lt_pow_iff_right (by omega)).mp hi, by omega, hf⟩, rfl⟩
  · rintro ⟨i, ⟨-, hle, hf⟩, rfl⟩
    have hpos : 0 < 2 ^ i := Nat.two_pow_pos i
    exact ⟨by omega, ⟨i, rfl⟩, hf⟩

end HammingPositions

/-! ## Hamming: the number of parity bits -/

section HammingCount

/-- The trials go up from r and stop at the first that is enough. -/
theorem parityCountFrom_spec {m k r : Nat} (henough : m + (r + k) + 1 ≤ 2 ^ (r + k))
    (hbelow : ∀ q < r, 2 ^ q < m + q + 1) :
    m + parityCountFrom m k r + 1 ≤ 2 ^ parityCountFrom m k r ∧
      ∀ q < parityCountFrom m k r, 2 ^ q < m + q + 1 := by
  induction k generalizing r with
  | zero => exact ⟨henough, hbelow⟩
  | succ k ih =>
    rw [parityCountFrom]
    split
    · next hr => exact ⟨hr, hbelow⟩
    · next hr =>
      refine ih (by rwa [Nat.add_right_comm r 1 k]) fun q hq => ?_
      rcases Nat.lt_succ_iff_lt_or_eq.mp hq with hq | rfl
      · exact hbelow q hq
      · omega

/-- R150: the least r with 2^r ≥ m + r + 1. -/
theorem parityCount_spec (m : Nat) :
    m + parityCount m + 1 ≤ 2 ^ parityCount m ∧ ∀ q < parityCount m, 2 ^ q < m + q + 1 := by
  refine parityCountFrom_spec ?_ (fun q hq => absurd hq (Nat.not_lt_zero q))
  have hpow : m + 1 < 2 ^ (m + 1) := Nat.lt_two_pow_self
  rw [Nat.zero_add, pow_succ]
  omega

/-- Of the positions 1 to m + r(m), r(m) are parity positions. -/
theorem countP_isParityPos (m : Nat) : (List.range' 1 (m + parityCount m)).countP isParityPos = parityCount m := by
  obtain ⟨henough, hbelow⟩ := parityCount_spec m
  have hperm := filter_isParityPos_perm (n := m + parityCount m) (k := parityCount m) (by omega) (fun _ => true)
  have hall : ∀ i ∈ List.range (parityCount m), (decide (2 ^ i ≤ m + parityCount m) && true) = true := by
    intro i hi
    have := hbelow i (List.mem_range.mp hi)
    have := List.mem_range.mp hi
    simp only [Bool.and_true, decide_eq_true_eq]
    omega
  have hlen := hperm.length_eq
  rw [List.filter_eq_self.mpr hall, List.length_map, List.length_range] at hlen
  simpa [List.countP_eq_length_filter] using hlen

end HammingCount

/-! ## Hamming: the code word -/

section HammingCode

theorem hamPlace_length (j n : Nat) (d : BitSeq) : (hamPlace j n d).length = n := by
  induction n generalizing j d with
  | zero => rfl
  | succ n ih => rw [hamPlace]; split <;> simp [ih]

theorem hamFill_length (c : BitSeq) (j : Nat) (l : BitSeq) : (hamFill c j l).length = l.length := by
  induction l generalizing j with
  | nil => rfl
  | cons x l ih => simp [hamFill, ih]

theorem hamEncode_length (d : BitSeq) : (hamEncode d).length = d.length + parityCount d.length := by
  rw [hamEncode, hamFill_length, hamPlace_length]

/-- Filling in the parity bits leaves the data bits. -/
theorem hamData_hamFill (c : BitSeq) (j : Nat) (l : BitSeq) : hamData j (hamFill c j l) = hamData j l := by
  induction l generalizing j with
  | nil => rfl
  | cons x l ih =>
    rw [hamFill, hamData, hamData, ih]
    cases isParityPos j <;> rfl

/-- The data bits are read back from where they were placed, if there is a place for each. -/
theorem hamData_hamPlace {j n : Nat} {d : BitSeq} (h : d.length + (List.range' j n).countP isParityPos = n) :
    hamData j (hamPlace j n d) = d := by
  induction n generalizing j d with
  | zero => rw [List.length_eq_zero_iff.mp (Nat.eq_zero_of_add_eq_zero_right h)]; rfl
  | succ n ih =>
    rw [List.range'_succ, List.countP_cons] at h
    cases hj : isParityPos j with
    | true =>
      rw [hj, if_pos rfl] at h
      simp [hamPlace, hamData, hj, ih (j := j + 1) (d := d) (by omega)]
    | false =>
      have hcount : (List.range' (j + 1) n).countP isParityPos ≤ n := by
        simpa using List.countP_le_length (p := isParityPos) (l := List.range' (j + 1) n)
      rw [hj, if_neg Bool.false_ne_true] at h
      obtain ⟨x, d, rfl⟩ := List.exists_cons_of_length_pos (by omega : 0 < d.length)
      rw [List.length_cons] at h
      simp [hamPlace, hamData, hj, ih (j := j + 1) (d := d) (by omega)]

/-- R154: the data bits stand at the positions that are no power of two. -/
theorem hamData_hamEncode (d : BitSeq) : hamData 1 (hamEncode d) = d := by
  rw [hamEncode, hamData_hamFill]
  exact hamData_hamPlace (by rw [countP_isParityPos])

/-- Filling in adds, over C(2^i), the parity bit at position 2^i alone: the placed word holds 0 there, and the other
parity positions are not in C(2^i). -/
theorem xorOver_hamFill_hamPlace (c : BitSeq) (i j n : Nat) (d : BitSeq) :
    xorOver (2 ^ i) j (hamFill c j (hamPlace j n d)) =
      (xorOver (2 ^ i) j (hamPlace j n d) ^^ (decide (j ≤ 2 ^ i ∧ 2 ^ i < j + n) && xorOver (2 ^ i) 1 c)) := by
  induction n generalizing j d with
  | zero =>
    have hout : ¬ (j ≤ 2 ^ i ∧ 2 ^ i < j + 0) := by omega
    rw [decide_eq_false hout, Bool.false_and, Bool.xor_false]
    rfl
  | succ n ih =>
    cases hj : isParityPos j with
    | false =>
      have hne : j ≠ 2 ^ i := fun h => by simp [h, isParityPos_two_pow] at hj
      have hrange : (j ≤ 2 ^ i ∧ 2 ^ i < j + (n + 1)) ↔ (j + 1 ≤ 2 ^ i ∧ 2 ^ i < j + 1 + n) := by omega
      simp only [hamPlace, hj, hamFill, Bool.false_eq_true, if_false, xorOver_cons, ih, Bool.xor_assoc, hrange]
    | true =>
      simp only [hamPlace, hj, hamFill, if_true, xorOver_cons, ih, Bool.and_false, Bool.false_xor,
        testBit_of_isParityPos hj]
      by_cases hi : j = 2 ^ i
      · have hhead : j ≤ 2 ^ i ∧ 2 ^ i < j + (n + 1) := by omega
        have htail : ¬ (j + 1 ≤ 2 ^ i ∧ 2 ^ i < j + 1 + n) := by omega
        have hown : xorOver j 1 c = xorOver (2 ^ i) 1 c := by rw [hi]
        rw [decide_eq_true hi, decide_eq_true hhead, decide_eq_false htail, hown, Bool.false_and, Bool.xor_false,
          Bool.xor_comm]
      · have hrange : (j ≤ 2 ^ i ∧ 2 ^ i < j + (n + 1)) ↔ (j + 1 ≤ 2 ^ i ∧ 2 ^ i < j + 1 + n) := by omega
        simp [hi, hrange]

/-- R154: the exclusive-or over every controlled set is 0. -/
theorem xorOver_hamEncode {d : BitSeq} {i : Nat} (h : 2 ^ i ≤ (hamEncode d).length) :
    xorOver (2 ^ i) 1 (hamEncode d) = false := by
  rw [hamEncode_length] at h
  have hin : 1 ≤ 2 ^ i ∧ 2 ^ i < 1 + (d.length + parityCount d.length) := ⟨Nat.one_le_two_pow, by omega⟩
  rw [hamEncode, xorOver_hamFill_hamPlace, decide_eq_true hin, Bool.true_and, Bool.xor_self]

end HammingCode

/-! ## Hamming: the syndrome -/

section HammingSyndrome

/-- A flip changes the exclusive-or over the sets that hold its position. -/
theorem xorOver_modify {c : BitSeq} {e : Nat} (h : e < c.length) (i j : Nat) :
    xorOver (2 ^ i) j (c.modify e not) = (xorOver (2 ^ i) j c ^^ (j + e).testBit i) := by
  induction c generalizing e j with
  | nil => exact absurd h (Nat.not_lt_zero e)
  | cons x c ih =>
    cases e with
    | zero =>
      rw [List.modify_zero_cons, xorOver_cons, xorOver_cons, Nat.add_zero]
      cases j.testBit i <;> cases x <;> simp
    | succ e =>
      rw [List.modify_succ_cons, xorOver_cons, xorOver_cons, ih (Nat.lt_of_succ_lt_succ h), Bool.xor_assoc,
        Nat.add_right_comm, Nat.add_assoc]

/-- A number is the sum of its binary digits. -/
theorem sum_testBit (q k : Nat) : ((List.range k).map fun i => if q.testBit i then 2 ^ i else 0).sum = q % 2 ^ k := by
  induction k with
  | zero => simp [Nat.mod_one]
  | succ k ih =>
    have hdigit : (if q.testBit k then 2 ^ k else 0) = 2 ^ k * (q / 2 ^ k % 2) := by
      rw [← Nat.toNat_testBit]
      cases q.testBit k <;> simp
    rw [List.range_succ, List.map_append, List.sum_append, ih, Nat.mod_pow_succ, ← hdigit]
    simp

/-- Where the odd sets are those of position q's binary digits, the syndrome is q (R155). -/
theorem hamSyndrome_eq {c : BitSeq} {q : Nat} (hq : q ≤ c.length)
    (h : ∀ i, 2 ^ i ≤ c.length → xorOver (2 ^ i) 1 c = q.testBit i) : hamSyndrome c = q := by
  have hterm (i : Nat) : (if 2 ^ i ≤ c.length ∧ xorOver (2 ^ i) 1 c = true then 2 ^ i else 0) =
      if q.testBit i then 2 ^ i else 0 := by
    by_cases hi : 2 ^ i ≤ c.length
    · simp [hi, h i hi]
    · have : q.testBit i = false := Nat.testBit_lt_two_pow (by omega)
      simp [hi, this]
  have hlog : q < 2 ^ (c.length.log2 + 1) := hq.trans_lt Nat.lt_log2_self
  simp only [hamSyndrome, hterm]
  rw [sum_testBit, Nat.mod_eq_of_lt hlog]

/-- R154: the syndrome of an unmodified code word is 0. -/
theorem hamSyndrome_hamEncode (d : BitSeq) : hamSyndrome (hamEncode d) = 0 :=
  hamSyndrome_eq (Nat.zero_le _) fun i hi => by rw [xorOver_hamEncode hi, Nat.zero_testBit]

/-- R156: the syndrome of a code word with one flipped bit is the bit's position. -/
theorem hamSyndrome_flip {d : BitSeq} {e : Nat} (h : e < (hamEncode d).length) :
    hamSyndrome ((hamEncode d).modify e not) = e + 1 := by
  refine hamSyndrome_eq (by rw [List.length_modify]; exact h) fun i hi => ?_
  rw [List.length_modify] at hi
  rw [xorOver_modify h, xorOver_hamEncode hi, Bool.false_xor, Nat.add_comm]

theorem hamCorrects_hamEncode (d : BitSeq) : hamCorrects (hamEncode d) = false := by
  rw [hamCorrects, hamSyndrome_hamEncode]
  rfl

theorem hamCorrects_flip {d : BitSeq} {e : Nat} (h : e < (hamEncode d).length) :
    hamCorrects ((hamEncode d).modify e not) = true := by
  rw [hamCorrects, hamSyndrome_flip h, List.length_modify, decide_eq_true (Nat.succ_le_of_lt h)]
  simp

theorem hamDecode_hamEncode (d : BitSeq) : hamDecode (hamEncode d) = d := by
  rw [hamDecode, hamRepair, hamCorrects_hamEncode, if_neg Bool.false_ne_true, hamData_hamEncode]

/-- R156. -/
theorem hamDecode_flip {d : BitSeq} {e : Nat} (h : e < (hamEncode d).length) :
    hamDecode ((hamEncode d).modify e not) = d := by
  rw [hamDecode, hamRepair, hamCorrects_flip h, if_pos rfl, hamSyndrome_flip h, Nat.add_sub_cancel,
    modify_not_modify_not, hamData_hamEncode]

end HammingSyndrome

/-! ## Hamming: the spec's view of a word, position by position -/

section HammingView

theorem map_add_one_range (c : BitSeq) : (List.range c.length).map (· + 1) = (c.zipIdx 1).map Prod.snd := by
  rw [List.zipIdx_map_snd, List.range'_eq_map_range]
  simp only [Nat.add_comm]

theorem atPos_of_mem_zipIdx {c : BitSeq} {a : Bit × Nat} (h : a ∈ c.zipIdx 1) : atPos c a.2 = a.1 := by
  obtain ⟨x, j⟩ := a
  obtain ⟨hle, hlt, hx⟩ := List.mem_zipIdx h
  rw [atPos, List.getD_eq_getElem _ _ (by omega), hx]

theorem hamData_eq (c : BitSeq) (j : Nat) :
    hamData j c = ((c.zipIdx j).filter fun a => !isParityPos a.2).map Prod.fst := by
  induction c generalizing j with
  | nil => rfl
  | cons x c ih =>
    rw [hamData, List.zipIdx_cons, List.filter_cons, ih]
    cases isParityPos j <;> rfl

theorem dataBits_eq (c : BitSeq) : dataBits c = hamData 1 c := by
  rw [dataBits, map_add_one_range, List.filter_map, List.map_map, hamData_eq]
  exact List.map_congr_left fun a ha => atPos_of_mem_zipIdx (List.mem_of_mem_filter ha)

theorem xorOver_eq (i : Nat) (c : BitSeq) (j : Nat) :
    xorOver (2 ^ i) j c = ((c.zipIdx j).countP (fun a => a.2.testBit i && a.1) % 2 == 1) := by
  induction c generalizing j with
  | nil => rfl
  | cons x c ih =>
    rw [xorOver_cons, List.zipIdx_cons, List.countP_cons, ih]
    rcases Nat.mod_two_eq_zero_or_one ((c.zipIdx (j + 1)).countP (fun a => a.2.testBit i && a.1)) with h | h <;>
      cases hx : (j.testBit i && x) <;> simp [Nat.add_mod, h]

/-- R152: the exclusive-or over a controlled set is the parity of its number of 1s. -/
theorem onesOver_odd (c : BitSeq) (i : Nat) : (onesOver c (2 ^ i) % 2 == 1) = xorOver (2 ^ i) 1 c := by
  have hones : onesOver c (2 ^ i) = (c.zipIdx 1).countP fun a => a.2.testBit i && a.1 := by
    rw [onesOver, map_add_one_range, List.countP_map]
    refine List.countP_congr fun a ha => ?_
    simp only [Function.comp_apply, atPos_of_mem_zipIdx ha, Bool.and_eq_true, bne_iff_ne, and_two_pow_ne_zero]
  rw [hones, xorOver_eq]

theorem sum_map_ite_zero (p : Nat → Prop) [DecidablePred p] (f : Nat → Nat) (l : List Nat) :
    (l.map fun i => if p i then f i else 0).sum = ((l.filter p).map f).sum := by
  simp [List.sum_map_ite]

theorem syndrome_eq (c : BitSeq) : syndrome c = hamSyndrome c := by
  have hperm := filter_isParityPos_perm (n := c.length) Nat.lt_log2_self (fun p => onesOver c p % 2 == 1)
  have hpos : (List.range c.length).map (· + 1) = List.range' 1 c.length := by
    rw [map_add_one_range, List.zipIdx_map_snd]
  rw [hamSyndrome, sum_map_ite_zero, syndrome, hpos]
  refine hperm.sum_eq.trans ?_
  simp only [onesOver_odd, Bool.decide_and, Bool.decide_eq_true]

end HammingView

/-! ## The operations -/

section ErrorControlOperations

theorem exec_ecHamDec (s : State) {c : BitSeq} (hin : s.inBits = c) :
    exec .ecHamDec s =
      .next { s with corrected := hamCorrects c, out := .bits (hamDecode c), result := .done } := by
  subst hin
  rfl

/-- R158: where a scheme's code word passes its check and holds its payload, its CHK sets OK on its encoder's OUT and its
STRIP leaves the payload. -/
theorem exec_verifyAndStrip {e : ErrorControl} {enc chk strip : Instr} {good bad : Status} (s : State)
    (henc : exec enc s = .next (s.emit (.bits (ecEncode e s.inBits))))
    (hrow : (e, chk, strip, good, bad) ∈ checkedSchemes)
    (hpass : ecVerdict e (ecEncode e s.inBits) = some true)
    (hpay : ecPayload e (ecEncode e s.inBits) = s.inBits) :
    ∃ t u v, exec enc s = .next t ∧ exec chk t.chain = .next u ∧ u.ok = true ∧
      exec strip t.chain = .next v ∧ v.out = .bits s.inBits := by
  obtain ⟨v, hv, hchk, hstrip, -⟩ := exec_checkedSchemes (s.emit (.bits (ecEncode e s.inBits))).chain hrow
  have htrue : v = true := Option.some.inj (hv.symm.trans hpass)
  exact ⟨_, _, _, henc, hchk, htrue, hstrip, congrArg Buf.bits hpay⟩

end ErrorControlOperations

/-! ## The obligations -/

/-- Settles O23: the syndrome of a code word is 0, and with one flipped bit it is the bit's position. -/
theorem hammingCorrectsEverySingleFlip : Obligations.HammingCorrectsEverySingleFlip := by
  unfold Obligations.HammingCorrectsEverySingleFlip
  intro s
  refine ⟨s.emit (.bits (hamEncode s.inBits)), hamEncode s.inBits, rfl, rfl,
    ⟨_, exec_ecHamDec _ rfl, ?_, ?_⟩, fun e he => ⟨_, exec_ecHamDec _ rfl, ?_, ?_⟩⟩
  · exact congrArg Buf.bits (hamDecode_hamEncode s.inBits)
  · exact hamCorrects_hamEncode s.inBits
  · exact congrArg Buf.bits (hamDecode_flip he)
  · exact hamCorrects_flip he

/-- Settles O22: the code word is divisible by the generator, and a single 1 is not. -/
theorem crcCodeWordLaws : Obligations.CrcCodeWordLaws := by
  unfold Obligations.CrcCodeWordLaws
  intro s
  refine ⟨s.emit (.bits (crcEncode s.inBits)), crc32 s.inBits, rfl, rfl, crc32_length _, ⟨_, rfl, ?_⟩,
    fun e he => ⟨_, rfl, ?_⟩⟩
  · exact congrArg (fun r => Buf.bits (crcEncode s.inBits ++ r)) (crc32_crcEncode s.inBits)
  · exact crcPass_flip (by rwa [crcEncode_length])

/-- Settles O21: a flip changes the parity, and in the payload it changes the checksum. -/
theorem singleFlipFailsParityAndChecksum : Obligations.SingleFlipFailsParityAndChecksum := by
  unfold Obligations.SingleFlipFailsParityAndChecksum
  intro s enc chk h
  simp only [List.mem_cons, Prod.mk.injEq, List.not_mem_nil, or_false] at h
  rcases h with ⟨rfl, rfl⟩ | ⟨rfl, rfl⟩
  · exact ⟨s.emit (.bits (parityEncode s.inBits)), _, rfl, rfl, fun e he => ⟨_, rfl, parityPass_flip he⟩⟩
  · exact ⟨s.emit (.bits (checksumEncode s.inBits)), _, rfl, rfl, fun e he => ⟨_, rfl, checksumPass_flip he⟩⟩

/-- Settles O20: a trailer computed again is the trailer appended, and it is what STRIP takes off. -/
theorem codeWordsVerifyAndStrip : Obligations.CodeWordsVerifyAndStrip := by
  unfold Obligations.CodeWordsVerifyAndStrip
  intro s enc chk strip h
  simp only [List.mem_cons, Prod.mk.injEq, List.not_mem_nil, or_false] at h
  rcases h with ⟨rfl, rfl, rfl⟩ | ⟨rfl, rfl, rfl⟩ | ⟨rfl, rfl, rfl⟩
  · exact exec_verifyAndStrip (e := .parity) (good := .success) (bad := .parityError) s rfl (by decide)
      (congrArg some (parityPass_parityEncode _)) (stripLast_append rfl)
  · exact exec_verifyAndStrip (e := .checksum) (good := .success) (bad := .checksumError) s rfl (by decide)
      (congrArg some (checksumPass_checksumEncode _)) (stripLast_append (checksumField_length _))
  · exact exec_verifyAndStrip (e := .crc) (good := .success) (bad := .crcError) s rfl (by decide)
      (congrArg some (crcPass_crcEncode _)) (stripLast_append (crc32_length _))

/-- Settles O19: the syndrome and the data bits, position by position, are the model's recursions. -/
theorem ecHammingDecode : Obligations.EcHammingDecode := by
  unfold Obligations.EcHammingDecode
  intro s
  have hcorr : hamCorrects s.inBits = decide (1 ≤ hamSyndrome s.inBits ∧ hamSyndrome s.inBits ≤ s.inBits.length) :=
    (Bool.decide_and _ _).symm
  simp only [exec_ecHamDec s rfl, hamDecode, hamRepair, hcorr, syndrome_eq, dataBits_eq, decide_eq_true_eq]

/-- Settles O18: the least count of parity bits, and the filled word's data bits and controlled sets. -/
theorem ecHammingEncode : Obligations.EcHammingEncode := by
  unfold Obligations.EcHammingEncode
  intro s
  obtain ⟨henough, hleast⟩ := parityCount_spec s.inBits.length
  refine ⟨hamEncode s.inBits, parityCount s.inBits.length, rfl, hamEncode_length _, henough, hleast, ?_, ?_⟩
  · rw [dataBits_eq, hamData_hamEncode]
  · rintro p ⟨i, rfl⟩ hp
    have hodd := onesOver_odd (hamEncode s.inBits) i
    rw [xorOver_hamEncode hp, beq_eq_false_iff_ne] at hodd
    omega

/-- Settles O17: the loop that moves over the window is the division from its front. -/
theorem ecCrcResults : Obligations.EcCrcResults := by
  unfold Obligations.EcCrcResults
  intro s
  simp only [crc_eq, ← trailerPass_eq_decide]
  exact ⟨rfl, rfl, rfl⟩

/-- Settles O16: the loop over the padded copy's words is the model's recursion. -/
theorem ecChecksumResults : Obligations.EcChecksumResults := by
  unfold Obligations.EcChecksumResults
  intro s
  have hfield (b : BitSeq) : beBits 16 (csum b) = checksumField b := by rw [csum_eq, checksumField]
  simp only [hfield, ← trailerPass_eq_decide]
  exact ⟨rfl, rfl, rfl⟩

/-- Settles O14: the three operations compute nothing on IN. -/
theorem ecNoneResults : Obligations.EcNoneResults := by
  unfold Obligations.EcNoneResults
  exact fun s => ⟨rfl, rfl, rfl⟩

/-- Settles O15: the parity bit and the verdict are the two values of the count of 1s modulo 2. -/
theorem ecParityResults : Obligations.EcParityResults := by
  unfold Obligations.EcParityResults
  intro s
  have hbit : parityBit s.inBits = decide (s.inBits.countP (· = true) % 2 = 1) := by
    rw [← popcount_eq]
    exact Bool.beq_eq_decide_eq _ _
  have hpass : parityPass s.inBits = decide (s.inBits.countP (· = true) % 2 = 0) := by
    rw [← popcount_eq]
    exact Bool.beq_eq_decide_eq _ _
  rw [← hbit, ← hpass, List.dropLast_eq_take]
  exact ⟨rfl, rfl, rfl⟩

end Sys2Proof.Machine
end

section
/-! PROOFS. The family 42_line_coding.md. A block of a signal is a window of it, so a decoder's mean is the mean of the
statement's samples; a signal put together from whole blocks is taken apart into the same blocks, so a round trip is a
fact about the block of one bit. -/

namespace Sys2Proof.Machine

open Sys2Proof.Pseudocode

/-! ## The blocks of a signal -/

section Blocks

variable {α : Type} {x : List α} {S : Nat}

@[simp] theorem blocks_length (x : List α) (S : Nat) : (blocks x S).length = x.length / S := by
  simp [blocks, complete, groupsOf_eq_map]

/-- R51: block i of a signal is its window from sample S·i on. -/
theorem getElem_blocks {i : Nat} (h : i < (blocks x S).length) : (blocks x S)[i] = (x.drop (S * i)).take S := by
  simp [blocks, complete, groupsOf_eq_map]

/-- A block that is counted lies within the signal. -/
theorem block_end_le {i : Nat} (h : i < x.length / S) : S * i + S ≤ x.length :=
  (Nat.mul_le_mul_left S h).trans (Nat.mul_div_le _ _)

theorem window_length {n k : Nat} (h : n + k ≤ x.length) : ((x.drop n).take k).length = k := by
  rw [List.length_take, List.length_drop]
  omega

theorem window_eq_map (d : α) {n k : Nat} (h : n + k ≤ x.length) :
    (x.drop n).take k = (List.range k).map fun j => x.getD (n + j) d := by
  refine List.ext_getElem (by rw [window_length h, List.length_map, List.length_range]) fun j hj _ => ?_
  rw [window_length h] at hj
  have hin : n + j < x.length := by omega
  rw [List.getElem_take, List.getElem_drop, List.getElem_map, List.getElem_range, List.getD_eq_getElem _ _ hin]

/-- The first n of a block's k samples. -/
theorem slice_window_left {m n k : Nat} (h : n ≤ k) : slice ((x.drop m).take k) 0 n = (x.drop m).take n := by
  rw [slice, List.drop_zero, List.take_take, Nat.min_eq_left h]

/-- What follows the first n of a block's k samples. -/
theorem slice_window_right {m n k : Nat} : slice ((x.drop m).take k) n k = (x.drop (m + n)).take (k - n) := by
  rw [slice_eq_take_drop, List.drop_take, List.drop_drop, List.take_take, Nat.min_self]

/-- A decoder that decides each block by `f`: how many bits, and from which samples each of them. -/
theorem decisions_spec (f : List α → Bool) (x : List α) (S : Nat) :
    ((blocks x S).map f).length = x.length / S ∧
    ∀ i, i < ((blocks x S).map f).length →
      S * i + S ≤ x.length ∧ ((blocks x S).map f).getD i false = f ((x.drop (S * i)).take S) := by
  have hlen : ((blocks x S).map f).length = x.length / S := by rw [List.length_map, blocks_length]
  refine ⟨hlen, fun i hi => ⟨block_end_le (hlen ▸ hi), ?_⟩⟩
  rw [List.getD_eq_getElem _ _ hi, List.getElem_map, getElem_blocks]

theorem blocks_append {blk : List α} (hS : 0 < S) (h : blk.length = S) (x : List α) :
    blocks (blk ++ x) S = blk :: blocks x S := by
  have hcount : (blk ++ x).length / S = x.length / S + 1 := by
    rw [List.length_append, h, Nat.add_comm, Nat.add_div_right _ hS]
  rw [blocks, complete, hcount, groupsOf, List.take_left' h, List.drop_left' h]
  rfl

theorem blocks_nil (S : Nat) : blocks ([] : List α) S = [] := by
  rw [← List.length_eq_zero_iff, blocks_length, List.length_nil, Nat.zero_div]

theorem flatMap_length {g : Bit → List α} (hlen : ∀ b, (g b).length = S) (b : BitSeq) :
    (b.flatMap g).length = S * b.length := by
  simp [List.length_flatMap, hlen, Nat.mul_comm]

/-- A decision that reads the block of one bit right reads every signal made of such blocks right. -/
theorem decisions_flatMap {f : List α → Bool} {g : Bit → List α} (hS : 0 < S) (hlen : ∀ b, (g b).length = S)
    (hdec : ∀ b, f (g b) = b) (b : BitSeq) : (blocks (b.flatMap g) S).map f = b := by
  induction b with
  | nil => simp [blocks_nil]
  | cons x b ih => rw [List.flatMap_cons, blocks_append hS (hlen x), List.map_cons, hdec, ih]

end Blocks

/-! ## Means -/

section Means

variable {x : List Sample} {n k : Nat}

/-- R13: the mean of a window's samples, each changed by `g` before. -/
theorem mean_map_window (g : Sample → Sample) (h : n + k ≤ x.length) :
    (Sample.mean (((x.drop n).take k).map g)).toReal =
      (∑ j ∈ Finset.range k, (g (x.getD (n + j) Sample.zero)).toReal) / k := by
  rw [Sample.mean_toReal, List.length_map, window_length h, window_eq_map Sample.zero h, List.map_map, List.map_map]
  rfl

theorem mean_window (h : n + k ≤ x.length) :
    (Sample.mean ((x.drop n).take k)).toReal = (∑ j ∈ Finset.range k, valueAt x (n + j)) / k := by
  have hmean := mean_map_window id h
  rwa [List.map_id] at hmean

theorem mean_abs_window (h : n + k ≤ x.length) :
    (Sample.mean (((x.drop n).take k).map Sample.abs)).toReal = (∑ j ∈ Finset.range k, |valueAt x (n + j)|) / k := by
  rw [mean_map_window _ h]
  simp only [Sample.abs_toReal, valueAt]

theorem mean_replicate (hk : 0 < k) (v : Sample) : (Sample.mean (List.replicate k v)).toReal = v.toReal := by
  have : (k : ℝ) ≠ 0 := by exact_mod_cast hk.ne'
  rw [Sample.mean_toReal, List.map_replicate, List.sum_replicate, List.length_replicate, nsmul_eq_mul]
  field_simp

end Means

/-! ## The line codes -/

section LineCodes

variable {p : Params}

/-- The level of a bit: +V for a 1 and −V for a 0 (R172). -/
def lineLevel (p : Params) (x : Bit) : Sample := if x then p.lineAmp else p.lineAmp.neg

theorem lineLevel_pos_iff (hV : 0 < p.lineAmp.toReal) (x : Bit) : 0 < (lineLevel p x).toReal ↔ x = true := by
  cases x <;> simp [lineLevel, hV, hV.le]

theorem lineLevel_not_lt_iff (hV : 0 < p.lineAmp.toReal) (x : Bit) :
    (lineLevel p !x).toReal < (lineLevel p x).toReal ↔ x = true := by
  cases x <;> simp [lineLevel, hV, hV.le]

theorem abs_lineLevel (hV : 0 < p.lineAmp.toReal) (x : Bit) : |(lineLevel p x).toReal| = p.lineAmp.toReal := by
  cases x <;> simp [lineLevel, abs_of_pos hV]

theorem nrzEncode_eq (p : Params) (b : BitSeq) :
    nrzEncode p b = b.flatMap fun x => List.replicate p.samples (lineLevel p x) := rfl

/-- The Manchester block of a bit: its level in the first half, the other one's in the second (R175). -/
def manBlock (p : Params) (x : Bit) : List Sample :=
  List.replicate (p.samples / 2) (lineLevel p x) ++ List.replicate (p.samples / 2) (lineLevel p !x)

theorem manBlock_eq (p : Params) :
    manBlock p = fun x =>
      List.replicate (p.samples / 2) (if x then p.lineAmp else p.lineAmp.neg) ++
      List.replicate (p.samples / 2) (if x then p.lineAmp.neg else p.lineAmp) := by
  funext x
  cases x <;> rfl

theorem manSignal_eq (p : Params) (b : BitSeq) : manSignal p b = b.flatMap (manBlock p) := by
  refine congrArg (b.flatMap ·) (funext fun x => ?_)
  cases x <;> rfl

theorem manchesterParams_of_even (h : p.samples % 2 = 0) : manchesterParams p = .ok () := if_pos h

/-- R174: an odd S is refused. -/
theorem manchesterParams_of_odd (h : p.samples % 2 = 1) :
    manchesterParams p = .error ⟨.invalidParameter, .param .samples⟩ := if_neg (by omega)

theorem manEncode_of_even (h : p.samples % 2 = 0) (b : BitSeq) :
    manEncode p b = .ok (b.flatMap (manBlock p), false) := by
  rw [manEncode, manchesterParams_of_even h, manSignal_eq]

theorem manEncode_of_odd (h : p.samples % 2 = 1) (b : BitSeq) :
    manEncode p b = .error ⟨.invalidParameter, .param .samples⟩ := by
  rw [manEncode, manchesterParams_of_odd h]

theorem manDecode_of_even (h : p.samples % 2 = 0) (x : List Sample) :
    manDecode p x = .ok (manBits p x, partialUnit p.samples x.length) := by
  rw [manDecode, manchesterParams_of_even h]

theorem manDecode_of_odd (h : p.samples % 2 = 1) (x : List Sample) :
    manDecode p x = .error ⟨.invalidParameter, .param .samples⟩ := by
  rw [manDecode, manchesterParams_of_odd h]

/-- R178's loop, its output so far and its polarity general, is the model's recursion. -/
theorem foldl_markOne (p : Params) (b : BitSeq) (out : List Sample) (pol : Bool) :
    (b.foldl (markOne p) (out, pol)).1 = out ++ amiMarks p pol b := by
  induction b generalizing out pol with
  | nil => simp [amiMarks]
  | cons x b ih =>
    cases x with
    | false => simp [markOne, amiMarks, ih]
    | true => simp [markOne, amiMarks, ih, plusV, minusV]

theorem amiEncode_eq (p : Params) (b : BitSeq) : amiEncode p b = (b.foldl (markOne p) ([], true)).1 :=
  (foldl_markOne p b [] true).symm

/-- The block of a bit and the polarity after it (R178). -/
theorem amiMarks_cons (p : Params) (pol x : Bool) (b : BitSeq) :
    amiMarks p pol (x :: b) =
      List.replicate p.samples (if x then lineLevel p pol else Sample.zero) ++ amiMarks p (pol ^^ x) b := by
  cases x with
  | false => rw [Bool.xor_false]; rfl
  | true => rw [Bool.xor_true]; rfl

theorem amiMarks_length (p : Params) (pol : Bool) (b : BitSeq) : (amiMarks p pol b).length = p.samples * b.length := by
  induction b generalizing pol with
  | nil => rfl
  | cons x b ih => rw [amiMarks_cons, List.length_append, List.length_replicate, ih, List.length_cons]; ring

end LineCodes

/-! ## The decoders' decisions as comparisons of real means -/

section Decisions

variable {p : Params}

/-- R176's decision on a block. -/
def manDecision (p : Params) (blk : List Sample) : Bool :=
  (Sample.mean (slice blk (p.samples / 2) p.samples)).lt (Sample.mean (slice blk 0 (p.samples / 2)))

theorem manBits_eq (p : Params) (x : List Sample) : manBits p x = (blocks x p.samples).map (manDecision p) := rfl

/-- R179's decision on a block. -/
def amiDecision (p : Params) (blk : List Sample) : Bool :=
  (p.lineAmp.scale (1 / 2)).lt (Sample.mean (blk.map Sample.abs))

theorem amiDecode_eq (p : Params) (x : List Sample) : amiDecode p x = (blocks x p.samples).map (amiDecision p) := rfl

theorem amiDecision_iff (p : Params) (blk : List Sample) :
    amiDecision p blk = true ↔ p.lineAmp.toReal / 2 < (Sample.mean (blk.map Sample.abs)).toReal := by
  have hhalf : (p.lineAmp.scale (1 / 2)).toReal = p.lineAmp.toReal / 2 := by rw [Sample.scale_toReal]; push_cast; ring
  rw [amiDecision, Sample.lt_iff, hhalf]

/-- R173: floor(len / S) bits, bit i by the mean of block i. -/
theorem nrzDecode_spec (p : Params) (x : List Sample) :
    (nrzDecode p x).length = x.length / p.samples ∧
    ∀ i, i < (nrzDecode p x).length → ((nrzDecode p x).getD i false = true ↔ 0 < blockMean p x i) := by
  obtain ⟨hlen, hbit⟩ := decisions_spec (fun blk => (Sample.mean blk).isPos) x p.samples
  refine ⟨hlen, fun i hi => ?_⟩
  obtain ⟨hin, hget⟩ := hbit i hi
  rw [nrzDecode, hget, Sample.isPos_iff, mean_window hin, blockMean, blockSum]

/-- R176: floor(len / S) bits, bit i by the means of the halves of block i. -/
theorem manBits_spec (heven : p.samples % 2 = 0) (x : List Sample) :
    (manBits p x).length = x.length / p.samples ∧
    ∀ i, i < (manBits p x).length →
      ((manBits p x).getD i false = true ↔
        (∑ j ∈ Finset.range (p.samples / 2), valueAt x (p.samples * i + p.samples / 2 + j)) /
            ((p.samples / 2 : ℕ) : ℝ) <
          (∑ j ∈ Finset.range (p.samples / 2), valueAt x (p.samples * i + j)) / ((p.samples / 2 : ℕ) : ℝ)) := by
  obtain ⟨hlen, hbit⟩ := decisions_spec (manDecision p) x p.samples
  refine ⟨hlen, fun i hi => ?_⟩
  obtain ⟨hin, hget⟩ := hbit i hi
  have hhalf : p.samples - p.samples / 2 = p.samples / 2 := by omega
  rw [manBits_eq, hget, manDecision, Sample.lt_iff, slice_window_left (Nat.div_le_self _ _), slice_window_right, hhalf,
    mean_window (by omega), mean_window (by omega)]

/-- R179: floor(len / S) bits, bit i by the mean absolute value of block i. -/
theorem amiDecode_spec (p : Params) (x : List Sample) :
    (amiDecode p x).length = x.length / p.samples ∧
    ∀ i, i < (amiDecode p x).length →
      ((amiDecode p x).getD i false = true ↔ p.lineAmp.toReal / 2 < blockMeanAbs p x i) := by
  obtain ⟨hlen, hbit⟩ := decisions_spec (amiDecision p) x p.samples
  refine ⟨hlen, fun i hi => ?_⟩
  obtain ⟨hin, hget⟩ := hbit i hi
  rw [amiDecode_eq, hget, amiDecision_iff, mean_abs_window hin, blockMeanAbs, blockSum]

end Decisions

/-! ## Round trips -/

section LineRoundTrips

variable {p : Params}

/-- A block at a bit's level has that level as its mean, and its sign is the bit (R180). -/
theorem isPos_mean_lineLevel (hV : 0 < p.lineAmp.toReal) (hS : 0 < p.samples) (x : Bit) :
    (Sample.mean (List.replicate p.samples (lineLevel p x))).isPos = x := by
  rw [Bool.eq_iff_iff, Sample.isPos_iff, mean_replicate hS, lineLevel_pos_iff hV]

theorem nrzDecode_nrzEncode (hV : 0 < p.lineAmp.toReal) (hS : 0 < p.samples) (b : BitSeq) :
    nrzDecode p (nrzEncode p b) = b := by
  rw [nrzEncode_eq, nrzDecode]
  exact decisions_flatMap hS (fun _ => List.length_replicate) (isPos_mean_lineLevel hV hS) b

theorem manBlock_length (heven : p.samples % 2 = 0) (x : Bit) : (manBlock p x).length = p.samples := by
  simp only [manBlock, List.length_append, List.length_replicate]
  omega

/-- The halves of a Manchester block are at the two levels, so the greater one tells the bit (R180). -/
theorem manDecision_manBlock (hV : 0 < p.lineAmp.toReal) (hS : 0 < p.samples) (heven : p.samples % 2 = 0) (x : Bit) :
    manDecision p (manBlock p x) = x := by
  have hhalf : 0 < p.samples / 2 := by omega
  have hfirst : slice (manBlock p x) 0 (p.samples / 2) = List.replicate (p.samples / 2) (lineLevel p x) := by
    rw [slice, List.drop_zero, manBlock, List.take_left' List.length_replicate]
  have hsecond : slice (manBlock p x) (p.samples / 2) p.samples = List.replicate (p.samples / 2) (lineLevel p !x) := by
    rw [slice, List.take_of_length_le (manBlock_length heven x).le, manBlock, List.drop_left' List.length_replicate]
  rw [manDecision, hfirst, hsecond, Bool.eq_iff_iff, Sample.lt_iff, mean_replicate hhalf, mean_replicate hhalf,
    lineLevel_not_lt_iff hV]

theorem manBits_flatMap_manBlock (hV : 0 < p.lineAmp.toReal) (hS : 0 < p.samples) (heven : p.samples % 2 = 0)
    (b : BitSeq) : manBits p (b.flatMap (manBlock p)) = b :=
  decisions_flatMap hS (manBlock_length heven) (manDecision_manBlock hV hS heven) b

/-- A mark of either polarity has the mean absolute value V, and a space has 0 (R180). -/
theorem amiDecision_block (hV : 0 < p.lineAmp.toReal) (hS : 0 < p.samples) (pol x : Bool) :
    amiDecision p (List.replicate p.samples (if x then lineLevel p pol else Sample.zero)) = x := by
  rw [Bool.eq_iff_iff, amiDecision_iff, List.map_replicate, mean_replicate hS, Sample.abs_toReal]
  cases x with
  | false => simp [(half_pos hV).le]
  | true => simp [abs_lineLevel hV, hV]

theorem amiDecode_amiMarks (hV : 0 < p.lineAmp.toReal) (hS : 0 < p.samples) (pol : Bool) (b : BitSeq) :
    amiDecode p (amiMarks p pol b) = b := by
  induction b generalizing pol with
  | nil => rw [amiMarks, amiDecode_eq, blocks_nil, List.map_nil]
  | cons x b ih =>
    rw [amiMarks_cons, amiDecode_eq, blocks_append hS List.length_replicate, List.map_cons, amiDecision_block hV hS,
      ← amiDecode_eq, ih]

theorem partialUnit_mul (k n : Nat) : partialUnit k (k * n) = false := by
  simp [partialUnit]

/-- R180: each line code's decoder takes its encoder's signal apart, without a warning. -/
theorem lineDecode_lineEncode {c : LineCode} (hV : 0 < p.lineAmp.toReal) (hS : 0 < p.samples) (hready : lineReady p c)
    (b : BitSeq) : ∃ x, lineEncode p c b = .ok (x, false) ∧ lineDecode p c x = .ok (b, false) := by
  cases c with
  | nrz =>
    refine ⟨nrzEncode p b, rfl, ?_⟩
    rw [lineDecode, nrzDecode_nrzEncode hV hS, nrzEncode_eq, flatMap_length fun _ => List.length_replicate,
      partialUnit_mul]
  | manchester =>
    have heven := hready rfl
    refine ⟨b.flatMap (manBlock p), manEncode_of_even heven b, ?_⟩
    rw [lineDecode, manDecode_of_even heven, manBits_flatMap_manBlock hV hS heven,
      flatMap_length (manBlock_length heven), partialUnit_mul]
  | bipolar =>
    refine ⟨amiEncode p b, rfl, ?_⟩
    rw [lineDecode, amiEncode, amiDecode_amiMarks hV hS, amiMarks_length, partialUnit_mul]

end LineRoundTrips

/-! ## The obligations -/

/-- Settles O25: bit i is the decision on block i, a window of the signal. -/
theorem lineDecodersResult : Obligations.LineDecodersResult := by
  unfold Obligations.LineDecodersResult
  intro s _
  rw [← partialUnit_eq_decide]
  refine ⟨⟨nrzDecode s.params s.inSig, rfl, nrzDecode_spec _ _⟩, fun heven => ?_, fun hodd => ?_,
    ⟨amiDecode s.params s.inSig, rfl, amiDecode_spec _ _⟩⟩
  · refine ⟨manBits s.params s.inSig, ?_, manBits_spec heven _⟩
    refine (exec_lineDecOf s .manchester).trans ?_
    rw [lineDecode, manDecode_of_even heven, State.finishAs_ok]
  · refine (exec_lineDecOf s .manchester).trans ?_
    rw [lineDecode, manDecode_of_odd hodd]
    rfl

/-- Settles O26: the block of one bit decodes to that bit. -/
theorem lineCodeRoundTrip : Obligations.LineCodeRoundTrip := by
  unfold Obligations.LineCodeRoundTrip
  intro s c hV hS hready
  obtain ⟨x, henc, hdec⟩ := lineDecode_lineEncode hV hS hready s.inBits
  have hdec' : lineDecode (s.emit (.samples x)).chain.params c (s.emit (.samples x)).chain.inSig =
      .ok (s.inBits, false) := hdec
  refine ⟨s.emit (.samples x), (s.emit (.samples x)).chain.emit (.bits s.inBits), ?_, ?_, rfl, rfl⟩
  · rw [exec_lineEncOf, henc, ← State.emit_eq_finishAs]
  · rw [exec_lineDecOf, hdec', ← State.emit_eq_finishAs]

/-- Settles O24: a Manchester block is one level, then the other, and R178's loop is the model's recursion. -/
theorem lineEncodersResult : Obligations.LineEncodersResult := by
  unfold Obligations.LineEncodersResult
  intro s
  refine ⟨rfl, fun heven => ?_, fun hodd => ?_, ?_⟩
  · refine (exec_lineEncOf s .manchester).trans ?_
    rw [lineEncode, manEncode_of_even heven, manBlock_eq, State.finishAs_silent]
  · refine (exec_lineEncOf s .manchester).trans ?_
    rw [lineEncode, manEncode_of_odd hodd]
    rfl
  · refine (exec_lineEncOf s .bipolar).trans ?_
    rw [lineEncode, amiEncode_eq, State.finishAs_silent]

end Sys2Proof.Machine
end

section
/-! PROOFS. The family 43_carrier_modulation.md. A modulated signal is one symbol period after the other, so a sample of
it is a sample of one period, and its blocks are the periods. Every demodulator reads a block through sums over one
period, which the sums of sin and cos over whole turns evaluate (R191); a table scheme takes the first least distance. -/

namespace Sys2Proof.Machine

open Sys2Proof.Pseudocode

/-! ## Sequences put together from pieces of one length -/

section Pieces

variable {α β : Type} {S : Nat} {l : List β} {g : β → List α}

theorem length_of_mem_map (hlen : ∀ a ∈ l, (g a).length = S) : ∀ x ∈ l.map g, x.length = S :=
  List.forall_mem_map.mpr hlen

theorem length_flatMap_of_pieces (hlen : ∀ a ∈ l, (g a).length = S) : (l.flatMap g).length = S * l.length := by
  rw [List.flatMap_def, length_flatten_of_groups (length_of_mem_map hlen), List.length_map]

theorem blocks_flatMap (hS : 0 < S) (hlen : ∀ a ∈ l, (g a).length = S) : blocks (l.flatMap g) S = l.map g := by
  rw [List.flatMap_def, blocks, complete_flatten hS (length_of_mem_map hlen)]

/-- The i-th window of the whole is the i-th piece. -/
theorem window_flatMap (hS : 0 < S) (hlen : ∀ a ∈ l, (g a).length = S) {i : Nat} (h : i < l.length) :
    ((l.flatMap g).drop (S * i)).take S = g l[i] := by
  have hi : i < (blocks (l.flatMap g) S).length := by rwa [blocks_flatMap hS hlen, List.length_map]
  have hget : (blocks (l.flatMap g) S)[i] = g l[i] := by simp [blocks_flatMap hS hlen]
  rw [← hget, getElem_blocks]

end Pieces

/-! ## Tuples: groups padded with zeros -/

section Tuples

variable {k : Nat}

theorem le_mul_ceilDiv (hk : 0 < k) (n : Nat) : n ≤ k * ceilDiv n k := by
  have hdiv := Nat.div_add_mod (n + k - 1) k
  have hmod := Nat.mod_lt (n + k - 1) hk
  rw [ceilDiv]
  omega

theorem mul_ceilDiv_le (hk : 0 < k) (n : Nat) : k * ceilDiv n k ≤ n + k := by
  have hdiv := Nat.div_add_mod (n + k - 1) k
  rw [ceilDiv]
  omega

/-- R201: a bit sequence with the zero padding of its last tuple. -/
def padToWidth (b : BitSeq) (k : Nat) : BitSeq := b ++ zeros (k * ceilDiv b.length k - b.length)

theorem padToWidth_length (hk : 0 < k) (b : BitSeq) : (padToWidth b k).length = k * ceilDiv b.length k := by
  have := le_mul_ceilDiv hk b.length
  rw [padToWidth, List.length_append, zeros_length]
  omega

theorem padToWidth_one (b : BitSeq) : padToWidth b 1 = b := by
  simp [padToWidth, ceilDiv, zeros]

theorem groupPad_length (b : BitSeq) (k : Nat) : (groupPad b k).length = ceilDiv b.length k := by
  simp [groupPad, groupsOf_eq_map]

theorem flatten_groupPad (hk : 0 < k) (b : BitSeq) : (groupPad b k).flatten = padToWidth b k := by
  rw [groupPad, flatten_groupsOf]
  exact List.take_of_length_le (padToWidth_length hk b).le

theorem length_of_mem_groupPad (hk : 0 < k) (b : BitSeq) : ∀ g ∈ groupPad b k, g.length = k :=
  length_of_mem_groupsOf (padToWidth_length hk b).ge

/-- The padding is a part of k zeros, and no tuple reaches beyond it. -/
theorem getElem_groupPad (hk : 0 < k) (b : BitSeq) {i : Nat} (h : i < (groupPad b k).length) :
    (groupPad b k)[i] = ((b ++ zeros k).drop (k * i)).take k := by
  have hle := mul_ceilDiv_le hk b.length
  have hge := le_mul_ceilDiv hk b.length
  have hi : k * i + k ≤ k * ceilDiv b.length k := by
    rw [← Nat.mul_succ]
    exact Nat.mul_le_mul_left k (groupPad_length b k ▸ h)
  have hpad : b ++ zeros (k * ceilDiv b.length k - b.length) = (b ++ zeros k).take (k * ceilDiv b.length k) := by
    rw [List.take_append, List.take_of_length_le hge, zeros, zeros, List.take_replicate, min_eq_left (by omega)]
  simp only [groupPad, groupsOf_eq_map, List.getElem_map, List.getElem_range]
  rw [hpad, List.drop_take, List.take_take, min_eq_left (by omega)]

/-- Bits above the written ones do not show. -/
theorem beBits_two_pow_mul_add {n m v : Nat} (x : Nat) (hn : n ≤ m) (hv : v < 2 ^ m) :
    beBits n (2 ^ m * x + v) = beBits n v := by
  induction n with
  | zero => rfl
  | succ n ih =>
    rw [beBits, beBits, ih (by omega), Nat.testBit_two_pow_mul_add _ hv, if_pos (by omega)]

/-- R11: a bit sequence is the binary digits of its value. -/
theorem beBits_val (g : BitSeq) : beBits g.length (val g) = g := by
  induction g with
  | nil => rfl
  | cons x g ih =>
    have hhead : (2 ^ g.length * x.toNat + val g).testBit g.length = x := by
      rw [Nat.testBit_two_pow_mul_add _ (val_lt g), if_neg (lt_irrefl _), Nat.sub_self]
      cases x <;> rfl
    rw [val_cons, Nat.mul_comm, List.length_cons, beBits, hhead, beBits_two_pow_mul_add _ le_rfl (val_lt g), ih]

end Tuples

/-! ## Symbol periods and the references -/

section Periods

variable (p : Params)

theorem two_pi_mul_thetaTurns (f j : Nat) : 2 * Real.pi * ((thetaTurns p f j : ℚ) : ℝ) = theta p f j := by
  rw [thetaTurns, theta]
  push_cast
  ring

@[simp] theorem sinRef_toReal (f j : Nat) : (sinRef p f j).toReal = Real.sin (theta p f j) := by
  rw [sinRef, Sample.sinTurns_toReal, two_pi_mul_thetaTurns]

@[simp] theorem cosRef_toReal (f j : Nat) : (cosRef p f j).toReal = Real.cos (theta p f j) := by
  rw [cosRef, Sample.cosTurns_toReal, two_pi_mul_thetaTurns]

@[simp] theorem period_length (w : Nat → Sample) : (period p w).length = p.samples := by simp [period]

variable {p}

/-- A block of a signal is the period of its samples. -/
theorem window_eq_period {x : List Sample} {n : Nat} (h : n + p.samples ≤ x.length) :
    (x.drop n).take p.samples = period p fun j => x.getD (n + j) Sample.zero :=
  window_eq_map Sample.zero h

/-- R191: sample j of symbol i is sample j of that symbol's period. -/
theorem valueAt_flatMap_period {β : Type} {l : List β} (w : β → Nat → Sample) {i j : Nat} (hi : i < l.length)
    (hj : j < p.samples) :
    valueAt (l.flatMap fun a => period p (w a)) (p.samples * i + j) = (w l[i] j).toReal := by
  have hlen : ∀ a ∈ l, (period p (w a)).length = p.samples := fun a _ => period_length p (w a)
  have hin : p.samples * i + p.samples ≤ (l.flatMap fun a => period p (w a)).length := by
    rw [length_flatMap_of_pieces hlen, ← Nat.mul_succ]
    exact Nat.mul_le_mul_left _ hi
  have hwin := (window_eq_period hin).symm.trans (window_flatMap (Nat.zero_lt_of_lt hj) hlen hi)
  exact congrArg Sample.toReal (List.map_inj_left.mp hwin j (List.mem_range.mpr hj))

/-- Σ_j B[j]·w(j) of one period (R197, R200). -/
theorem correlate_period (w v : Nat → Sample) :
    (correlate w (period p v)).toReal = ∑ j ∈ Finset.range p.samples, (v j).toReal * (w j).toReal := by
  have hmap : (period p v).mapIdx (fun j x => x.mul (w j)) =
      (List.range p.samples).map fun j => (v j).mul (w j) := by
    refine List.ext_getElem (by simp) fun j _ _ => ?_
    simp [period]
  rw [correlate, hmap, Sample.sum_toReal, List.map_map]
  simp only [Function.comp_def, Sample.mul_toReal]
  rfl

/-- mean(abs(B)) of one period (R194). -/
theorem mean_abs_period (v : Nat → Sample) :
    (Sample.mean ((period p v).map Sample.abs)).toReal =
      (∑ j ∈ Finset.range p.samples, |(v j).toReal|) / p.samples := by
  rw [Sample.mean_toReal, List.length_map, period_length, period, List.map_map, List.map_map]
  simp only [Function.comp_def, Sample.abs_toReal]
  rfl

/-- The correlation of block i with a reference, as the statements' sum over the block. -/
theorem correlate_window (w : Nat → Sample) {x : List Sample} {i : Nat}
    (h : p.samples * i + p.samples ≤ x.length) :
    (correlate w ((x.drop (p.samples * i)).take p.samples)).toReal = blockSum p x i fun j v => v * (w j).toReal := by
  rw [window_eq_period h, correlate_period]
  rfl

end Periods

/-! ## Sums over whole turns (R191) -/

section Orthogonality

variable (p : Params) {f : Nat}

theorem theta_mul (n f j : Nat) : theta p (n * f) j = n * theta p f j := by
  rw [theta, theta]
  push_cast
  ring

variable {p}

/-- Half the step of a tone that makes f turns in S samples is no multiple of half a turn. -/
theorem sin_half_step_ne_zero (hf : 0 < f) (hS : f < p.samples) :
    Real.sin (2 * Real.pi * f / p.samples / 2) ≠ 0 := by
  have hpos : (0 : ℝ) < f := by exact_mod_cast hf
  have hlt : (f : ℝ) < p.samples := by exact_mod_cast hS
  have hstep : 2 * Real.pi * f / p.samples / 2 = Real.pi * (f / p.samples) := by ring
  have hfrac : (f : ℝ) / p.samples < 1 := (div_lt_one (hpos.trans hlt)).mpr hlt
  rw [hstep]
  refine (Real.sin_pos_of_pos_of_lt_pi (mul_pos Real.pi_pos (div_pos hpos (hpos.trans hlt))) ?_).ne'
  nlinarith [Real.pi_pos]

/-- All the steps of the tone are whole half turns. -/
theorem sin_half_turns (hS : f < p.samples) : Real.sin (p.samples * (2 * Real.pi * f / p.samples) / 2) = 0 := by
  have hne : (p.samples : ℝ) ≠ 0 := by exact_mod_cast (Nat.zero_lt_of_lt hS).ne'
  have hturns : p.samples * (2 * Real.pi * f / p.samples) / 2 = f * Real.pi := by field_simp
  rw [hturns, Real.sin_nat_mul_pi]

theorem theta_eq_step (f j : Nat) : theta p f j = 2 * Real.pi * f / p.samples * j + 0 := by
  rw [theta]
  ring

theorem sum_cos_theta (hf : 0 < f) (hS : f < p.samples) :
    ∑ j ∈ Finset.range p.samples, Real.cos (theta p f j) = 0 := by
  have hsum := Real.sin_mul_sum_cos p.samples (2 * Real.pi * f / p.samples) 0
  rw [sin_half_turns hS, zero_mul] at hsum
  simp only [theta_eq_step]
  exact (mul_eq_zero.mp hsum).resolve_left (sin_half_step_ne_zero hf hS)

theorem sum_sin_theta (hf : 0 < f) (hS : f < p.samples) :
    ∑ j ∈ Finset.range p.samples, Real.sin (theta p f j) = 0 := by
  have hsum := Real.sin_mul_sum_sin p.samples (2 * Real.pi * f / p.samples) 0
  rw [sin_half_turns hS, zero_mul] at hsum
  simp only [theta_eq_step]
  exact (mul_eq_zero.mp hsum).resolve_left (sin_half_step_ne_zero hf hS)

theorem sum_cos_sq (hf : 0 < f) (hS : 2 * f < p.samples) :
    ∑ j ∈ Finset.range p.samples, Real.cos (theta p f j) ^ 2 = p.samples / 2 := by
  have hterm (j : Nat) : Real.cos (theta p f j) ^ 2 = 1 / 2 + Real.cos (theta p (2 * f) j) / 2 := by
    rw [theta_mul, Real.cos_sq]
    push_cast
    rfl
  simp only [hterm, Finset.sum_add_distrib, ← Finset.sum_div, sum_cos_theta (Nat.mul_pos two_pos hf) hS,
    Finset.sum_const, Finset.card_range]
  ring

theorem sum_sin_sq (hf : 0 < f) (hS : 2 * f < p.samples) :
    ∑ j ∈ Finset.range p.samples, Real.sin (theta p f j) ^ 2 = p.samples / 2 := by
  simp only [Real.sin_sq, Finset.sum_sub_distrib, sum_cos_sq hf hS, Finset.sum_const, Finset.card_range]
  ring

theorem sum_sin_mul_cos (hf : 0 < f) (hS : 2 * f < p.samples) :
    ∑ j ∈ Finset.range p.samples, Real.sin (theta p f j) * Real.cos (theta p f j) = 0 := by
  have hterm (j : Nat) : Real.sin (theta p f j) * Real.cos (theta p f j) = Real.sin (theta p (2 * f) j) / 2 := by
    rw [theta_mul]
    push_cast
    rw [Real.sin_two_mul]
    ring
  simp only [hterm, ← Finset.sum_div, sum_sin_theta (Nat.mul_pos two_pos hf) hS, zero_div]

/-- The two tones of FSK are orthogonal (R191). -/
theorem sum_sin_mul_sin_double (hf : 0 < f) (hS : 3 * f < p.samples) :
    ∑ j ∈ Finset.range p.samples, Real.sin (theta p f j) * Real.sin (theta p (2 * f) j) = 0 := by
  have hterm (j : Nat) : Real.sin (theta p f j) * Real.sin (theta p (2 * f) j) =
      (Real.cos (theta p f j) - Real.cos (theta p (3 * f) j)) / 2 := by
    have hdiff : theta p (2 * f) j - theta p f j = theta p f j := by
      rw [theta_mul]
      push_cast
      ring
    have hsum : theta p (2 * f) j + theta p f j = theta p (3 * f) j := by
      rw [theta_mul, theta_mul]
      push_cast
      ring
    have hproduct := Real.two_mul_sin_mul_sin (theta p (2 * f) j) (theta p f j)
    rw [hdiff, hsum] at hproduct
    linarith
  simp only [hterm, ← Finset.sum_div, Finset.sum_sub_distrib, sum_cos_theta hf (by omega : f < p.samples),
    sum_cos_theta (Nat.mul_pos three_pos hf) hS, sub_zero, zero_div]

end Orthogonality

/-! ## The operations -/

section CarrierOperations

variable (s : State) {p : Params} {sch : Scheme}

theorem exec_modOf (sch : Scheme) :
    exec (modOf sch) s = .next (s.finishAs .samples (carrierMod s.params sch s.inBits)) := by
  rw [← State.finish_asSamples]
  cases sch <;> rfl

theorem exec_demOf (sch : Scheme) :
    exec (demOf sch) s = .next (s.finishAs .bits (carrierDem s.params sch s.inSig)) := by
  rw [← State.finish_asBits]
  cases sch <;> rfl

theorem carrierParams_of_lt (hf : 1 ≤ p.carrierFreq) (hS : 4 * p.carrierFreq < p.samples) :
    carrierParams p = .ok () := by
  rw [carrierParams, if_neg (by omega), if_neg (by omega)]

theorem schemeParams_of_ready (h : carrierReady p sch) : schemeParams p sch = .ok () := by
  obtain ⟨hf, hS, htab⟩ := h
  have hcarrier := carrierParams_of_lt hf hS
  cases sch with
  | ask | fsk => exact hcarrier
  | bpsk | qpsk | psk8 | qam16 =>
    rw [schemeParams, tableParams, hcarrier]
    · exact if_pos (htab trivial)
    all_goals exact nofun

theorem carrierMod_of_ready (h : carrierReady p sch) (b : BitSeq) :
    carrierMod p sch b = .ok (schemeSignal p sch b, false) := by
  rw [carrierMod, schemeParams_of_ready h]

theorem carrierDem_of_ready (h : carrierReady p sch) (x : List Sample) :
    carrierDem p sch x = .ok (schemeBits p sch x, partialUnit p.samples x.length) := by
  rw [carrierDem, schemeParams_of_ready h]

/-- R190: on a build that is ready for the scheme the modulator leaves the scheme's waveform. -/
theorem exec_modOf_of_ready (h : carrierReady s.params sch) :
    exec (modOf sch) s =
      .next { s with out := .samples (schemeSignal s.params sch s.inBits), result := .done } := by
  rw [exec_modOf, carrierMod_of_ready h, State.finishAs_silent]

/-- R190: on a build that is ready for the scheme the demodulator leaves the scheme's decisions, and warns of a partial
last block. -/
theorem exec_demOf_of_ready (h : carrierReady s.params sch) :
    exec (demOf sch) s =
      .next { s with
        warn := s.warn || decide (s.inSig.length % s.params.samples ≠ 0)
        out := .bits (schemeBits s.params sch s.inSig), result := .done } := by
  rw [exec_demOf, carrierDem_of_ready h, State.finishAs_ok, partialUnit_eq_decide]

theorem schemeSignal_of_hasTable (h : hasTable sch) (b : BitSeq) : schemeSignal p sch b = tabSignal p sch b := by
  cases sch with
  | ask | fsk => exact h.elim
  | bpsk | qpsk | psk8 | qam16 => rfl

theorem schemeBits_of_hasTable (h : hasTable sch) (x : List Sample) : schemeBits p sch x = tabBits p sch x := by
  cases sch with
  | ask | fsk => exact h.elim
  | bpsk | qpsk | psk8 | qam16 => rfl

theorem symbolWidth_pos (sch : Scheme) : 0 < symbolWidth sch := by cases sch <;> decide

end CarrierOperations

/-! ## ASK and FSK -/

section AskAndFsk

variable {p : Params}

/-- The ASK sample of a bit (R193). -/
def askWave (p : Params) (x : Bit) (j : Nat) : Sample :=
  if x then (sinRef p p.carrierFreq j).mul p.carrierAmp else Sample.zero

theorem askSignal_eq (p : Params) (b : BitSeq) : askSignal p b = b.flatMap fun x => period p (askWave p x) := rfl

theorem askWave_toReal (p : Params) (x : Bit) (j : Nat) :
    (askWave p x j).toReal = if x then p.carrierAmp.toReal * Real.sin (theta p p.carrierFreq j) else 0 := by
  cases x with
  | false => rfl
  | true => simp [askWave, mul_comm]

/-- The frequency of a bit (R195). -/
def fskFreq (p : Params) (x : Bit) : Nat := if x then 2 * p.carrierFreq else p.carrierFreq

/-- The FSK sample of a bit (R196). -/
def fskWave (p : Params) (x : Bit) (j : Nat) : Sample := (sinRef p (fskFreq p x) j).mul p.carrierAmp

theorem fskSignal_eq (p : Params) (b : BitSeq) : fskSignal p b = b.flatMap fun x => period p (fskWave p x) := rfl

theorem fskWave_toReal (p : Params) (x : Bit) (j : Nat) :
    (fskWave p x j).toReal = p.carrierAmp.toReal * Real.sin (theta p (fskFreq p x) j) := by
  simp [fskWave, mul_comm]

/-- A keyed signal: its length and its samples, bit by bit. -/
theorem keyed_spec (w : Bit → Nat → Sample) (b : BitSeq) :
    (b.flatMap fun x => period p (w x)).length = p.samples * b.length ∧
    ∀ i j, i < b.length → j < p.samples →
      valueAt (b.flatMap fun x => period p (w x)) (p.samples * i + j) = (w (b.getD i false) j).toReal := by
  refine ⟨length_flatMap_of_pieces fun x _ => period_length p (w x), fun i j hi hj => ?_⟩
  rw [valueAt_flatMap_period w hi hj, List.getD_eq_getElem _ _ hi]

/-- R194's decision on a block. -/
def askDecision (p : Params) (blk : List Sample) : Bool := p.askThreshold.lt (Sample.mean (blk.map Sample.abs))

theorem askBits_eq (p : Params) (x : List Sample) : askBits p x = (blocks x p.samples).map (askDecision p) := rfl

/-- R197's decision on a block. -/
def fskDecision (p : Params) (blk : List Sample) : Bool :=
  (correlate (sinRef p p.carrierFreq) blk).abs.lt (correlate (sinRef p (2 * p.carrierFreq)) blk).abs

theorem fskBits_eq (p : Params) (x : List Sample) : fskBits p x = (blocks x p.samples).map (fskDecision p) := rfl

/-- R194: floor(len / S) bits, bit i by the mean absolute sample of block i. -/
theorem askBits_spec (p : Params) (x : List Sample) :
    (askBits p x).length = x.length / p.samples ∧
    ∀ i, i < (askBits p x).length →
      ((askBits p x).getD i false = true ↔ p.askThreshold.toReal < blockMeanAbs p x i) := by
  obtain ⟨hlen, hbit⟩ := decisions_spec (askDecision p) x p.samples
  refine ⟨hlen, fun i hi => ?_⟩
  obtain ⟨hin, hget⟩ := hbit i hi
  rw [askBits_eq, hget, askDecision, Sample.lt_iff, mean_abs_window hin, blockMeanAbs, blockSum]

/-- R197: floor(len / S) bits, bit i by the two correlations of block i. -/
theorem fskBits_spec (p : Params) (x : List Sample) :
    (fskBits p x).length = x.length / p.samples ∧
    ∀ i, i < (fskBits p x).length →
      ((fskBits p x).getD i false = true ↔
        |blockSum p x i fun j v => v * Real.sin (theta p p.carrierFreq j)| <
        |blockSum p x i fun j v => v * Real.sin (theta p (2 * p.carrierFreq) j)|) := by
  obtain ⟨hlen, hbit⟩ := decisions_spec (fskDecision p) x p.samples
  refine ⟨hlen, fun i hi => ?_⟩
  obtain ⟨hin, hget⟩ := hbit i hi
  rw [fskBits_eq, hget, fskDecision, Sample.lt_iff, Sample.abs_toReal, Sample.abs_toReal, correlate_window _ hin,
    correlate_window _ hin]
  simp only [sinRef_toReal]

end AskAndFsk

/-! ## The first entry of the least distance (R200) -/

section FirstLeast

variable {d : SymEntry → ℝ} {t : SymTab} {g g' : Nat} {e e' f : SymEntry}

/-- Entry `e` of the table, at index `g`, has the least `d`, and it is the first that has it. -/
def IsFirstLeast (d : SymEntry → ℝ) (t : SymTab) (g : Nat) (e : SymEntry) : Prop :=
  t[g]? = some e ∧ ∀ (h : Nat) (f : SymEntry), t[h]? = some f → d e ≤ d f ∧ (h < g → d e < d f)

theorem isFirstLeast_singleton (d : SymEntry → ℝ) (e : SymEntry) : IsFirstLeast d [e] 0 e := by
  refine ⟨rfl, fun h f hf => ⟨?_, fun hlt => absurd hlt (Nat.not_lt_zero h)⟩⟩
  rw [List.mem_singleton.mp (List.mem_of_getElem? hf)]

/-- Each entry of a longer table is one of the table before or the last. -/
theorem getElem?_concat {h : Nat} (hf : (t ++ [e])[h]? = some f) : t[h]? = some f ∨ (h = t.length ∧ f = e) := by
  rcases lt_or_ge h t.length with hlt | hge
  · exact .inl (by rwa [List.getElem?_append_left hlt] at hf)
  · rw [List.getElem?_append_right hge, List.getElem?_singleton] at hf
    obtain ⟨hzero, hlast⟩ := Option.ite_none_right_eq_some.mp hf
    exact .inr ⟨by omega, (Option.some.inj hlast).symm⟩

theorem IsFirstLeast.lt_length (h : IsFirstLeast d t g e) : g < t.length := by
  obtain ⟨hget, -⟩ := h
  exact (List.getElem?_eq_some_iff.mp hget).choose

/-- A smaller distance takes the place of the least so far. -/
theorem IsFirstLeast.concat_of_lt (h : IsFirstLeast d t g e) (hlt : d f < d e) :
    IsFirstLeast d (t ++ [f]) t.length f := by
  obtain ⟨-, hleast⟩ := h
  refine ⟨by simp, fun n f' hf' => ?_⟩
  rcases getElem?_concat hf' with hold | ⟨rfl, rfl⟩
  · have hless : d f < d f' := hlt.trans_le (hleast n f' hold).1
    exact ⟨hless.le, fun _ => hless⟩
  · exact ⟨le_rfl, fun hself => absurd hself (lt_irrefl _)⟩

/-- A distance that is not smaller leaves the least so far. -/
theorem IsFirstLeast.concat_of_le (h : IsFirstLeast d t g e) (hle : d e ≤ d f) : IsFirstLeast d (t ++ [f]) g e := by
  have hg := h.lt_length
  obtain ⟨hget, hleast⟩ := h
  refine ⟨by rwa [List.getElem?_append_left hg], fun n f' hf' => ?_⟩
  rcases getElem?_concat hf' with hold | ⟨rfl, rfl⟩
  · exact hleast n f' hold
  · exact ⟨hle, fun hlast => absurd hlast (by omega)⟩

theorem IsFirstLeast.unique (h : IsFirstLeast d t g e) (h' : IsFirstLeast d t g' e') : g = g' := by
  obtain ⟨hget, hleast⟩ := h
  obtain ⟨hget', hleast'⟩ := h'
  rcases lt_trichotomy g g' with hlt | heq | hgt
  · exact absurd ((hleast' g e hget).2 hlt) (hleast g' e' hget').1.not_gt
  · exact heq
  · exact absurd ((hleast g' e' hget').2 hgt) (hleast' g e hget).1.not_gt

theorem IsFirstLeast.of_mul {d' : SymEntry → ℝ} {c : ℝ} (hc : 0 < c) (hd : ∀ e, d e = c * d' e)
    (h : IsFirstLeast d t g e) : IsFirstLeast d' t g e := by
  simpa only [IsFirstLeast, hd, mul_le_mul_iff_right₀ hc, mul_lt_mul_iff_right₀ hc] using h

/-- R200's scan, with the entries before it general. -/
theorem nearestFrom_isFirstLeast (p : Params) (i q : Sample) (l : SymTab)
    (h : IsFirstLeast (fun e => (distSq p i q e).toReal) t g e) :
    ∃ e', IsFirstLeast (fun e => (distSq p i q e).toReal) (t ++ l)
      (nearestFrom p i q t.length l g (distSq p i q e)) e' := by
  induction l generalizing t g e with
  | nil => exact ⟨e, by rwa [List.append_nil]⟩
  | cons f l ih =>
    have hlen : t.length + 1 = (t ++ [f]).length := by simp
    rw [List.append_cons, nearestFrom, hlen]
    split
    next hlt => exact ih (h.concat_of_lt ((Sample.lt_iff _ _).mp hlt))
    next hge => exact ih (h.concat_of_le (not_lt.mp fun hlt => hge ((Sample.lt_iff _ _).mpr hlt)))

theorem nearest_isFirstLeast (p : Params) (i q : Sample) (h : t ≠ []) :
    ∃ e, IsFirstLeast (fun e => (distSq p i q e).toReal) t (nearest p i q t) e := by
  cases t with
  | nil => exact absurd rfl h
  | cons e l => exact nearestFrom_isFirstLeast p i q l (isFirstLeast_singleton _ e)

end FirstLeast

/-! ## The table schemes -/

section TableSchemes

variable {p : Params} {sch : Scheme}

/-- The sample of a table entry (R199), by the entry's point. -/
def entryWave (p : Params) (e : SymEntry) (j : Nat) : Sample :=
  (((cosRef p p.carrierFreq j).mul e.x).sub ((sinRef p p.carrierFreq j).mul e.y)).mul p.carrierAmp

theorem tabWave_eq (p : Params) (e : SymEntry) : tabWave p e = period p (entryWave p e) := rfl

@[simp] theorem tabWave_length (p : Params) (e : SymEntry) : (tabWave p e).length = p.samples := period_length p _

theorem entryWave_toReal (p : Params) (e : SymEntry) (j : Nat) :
    (entryWave p e j).toReal = p.carrierAmp.toReal *
      (e.x.toReal * Real.cos (theta p p.carrierFreq j) - e.y.toReal * Real.sin (theta p p.carrierFreq j)) := by
  simp only [entryWave, Sample.mul_toReal, Sample.sub_toReal, cosRef_toReal, sinRef_toReal]
  ring

/-- R199: with any polar form (a, φ) of the entry's point, the sample is A_MAX·a·cos(θ + φ). -/
theorem entryWave_polar {e : SymEntry} {a φ : ℝ} (hx : a * Real.cos φ = e.x.toReal) (hy : a * Real.sin φ = e.y.toReal)
    (j : Nat) :
    (entryWave p e j).toReal = p.carrierAmp.toReal * a * Real.cos (theta p p.carrierFreq j + φ) := by
  rw [entryWave_toReal, ← hx, ← hy, Real.cos_add]
  ring

/-- The entry of a tuple. -/
def entryOf (p : Params) (sch : Scheme) (g : BitSeq) : SymEntry := (symTab p sch).getD (val g) default

theorem tabSignal_eq (p : Params) (sch : Scheme) (b : BitSeq) :
    tabSignal p sch b = (groupPad b (symbolWidth sch)).flatMap fun g => tabWave p (entryOf p sch g) := rfl

/-- An exhaustive table has an entry for every tuple (R198). -/
theorem getElem?_entryOf (htab : (symTab p sch).length = 2 ^ symbolWidth sch) {g : BitSeq}
    (hg : g.length = symbolWidth sch) : (symTab p sch)[val g]? = some (entryOf p sch g) := by
  have hlt : val g < (symTab p sch).length := htab ▸ hg ▸ val_lt g
  rw [entryOf, List.getD_eq_getElem _ _ hlt, List.getElem?_eq_getElem hlt]

theorem tabSignal_length (p : Params) (sch : Scheme) (b : BitSeq) :
    (tabSignal p sch b).length = p.samples * ceilDiv b.length (symbolWidth sch) := by
  rw [tabSignal_eq, length_flatMap_of_pieces fun g _ => tabWave_length p _, groupPad_length]

/-- R199: sample j of symbol i is that of the i-th tuple's entry. -/
theorem valueAt_tabSignal (b : BitSeq) {i j : Nat} (hi : i < (groupPad b (symbolWidth sch)).length)
    (hj : j < p.samples) :
    valueAt (tabSignal p sch b) (p.samples * i + j) =
      (entryWave p (entryOf p sch (groupPad b (symbolWidth sch))[i]) j).toReal :=
  valueAt_flatMap_period (fun g => entryWave p (entryOf p sch g)) hi hj

theorem inPhase_toReal (p : Params) (blk : List Sample) :
    (inPhase p blk).toReal = 2 / p.samples * (correlate (cosRef p p.carrierFreq) blk).toReal := by
  rw [inPhase, Sample.scale_toReal]
  push_cast
  rfl

theorem quadrature_toReal (p : Params) (blk : List Sample) :
    (quadrature p blk).toReal =
      2 / p.samples * (correlate (fun j => (sinRef p p.carrierFreq j).neg) blk).toReal := by
  rw [quadrature, Sample.scale_toReal]
  push_cast
  rfl

theorem blockI_eq {x : List Sample} {i : Nat} (h : p.samples * i + p.samples ≤ x.length) :
    blockI p x i = (inPhase p ((x.drop (p.samples * i)).take p.samples)).toReal / p.carrierAmp.toReal := by
  rw [inPhase_toReal, correlate_window _ h, blockI]
  simp only [cosRef_toReal]

theorem blockQ_eq {x : List Sample} {i : Nat} (h : p.samples * i + p.samples ≤ x.length) :
    blockQ p x i = (quadrature p ((x.drop (p.samples * i)).take p.samples)).toReal / p.carrierAmp.toReal := by
  rw [quadrature_toReal, correlate_window _ h, blockQ]
  simp only [Sample.neg_toReal, sinRef_toReal]

/-- The model's distance is A_MAX² times R200's. -/
theorem distSq_toReal (hA : 0 < p.carrierAmp.toReal) (i q : Sample) (e : SymEntry) :
    (distSq p i q e).toReal =
      p.carrierAmp.toReal ^ 2 * entryDistance (i.toReal / p.carrierAmp.toReal) (q.toReal / p.carrierAmp.toReal) e := by
  simp only [distSq, entryDistance, Sample.add_toReal, Sample.mul_toReal, Sample.sub_toReal]
  field_simp

/-- R200: the scan finds the first entry nearest to the measured point over A_MAX. -/
theorem nearest_entryDistance (hA : 0 < p.carrierAmp.toReal) (htab : (symTab p sch).length = 2 ^ symbolWidth sch)
    (i q : Sample) :
    ∃ e, IsFirstLeast (entryDistance (i.toReal / p.carrierAmp.toReal) (q.toReal / p.carrierAmp.toReal))
      (symTab p sch) (nearest p i q (symTab p sch)) e := by
  have hne : symTab p sch ≠ [] := List.ne_nil_of_length_pos (htab ▸ Nat.two_pow_pos _)
  obtain ⟨e, he⟩ := nearest_isFirstLeast p i q hne
  exact ⟨e, he.of_mul (pow_pos hA 2) (distSq_toReal hA i q)⟩

@[simp] theorem tabDecide_length (p : Params) (sch : Scheme) (blk : List Sample) :
    (tabDecide p sch blk).length = symbolWidth sch := beBits_length _ _

theorem tabBits_length (p : Params) (sch : Scheme) (x : List Sample) :
    (tabBits p sch x).length = symbolWidth sch * (x.length / p.samples) := by
  rw [tabBits, length_flatMap_of_pieces fun blk _ => tabDecide_length p sch blk, blocks_length]

/-- Tuple i of the demodulator's bits is the decision on block i. -/
theorem window_tabBits {x : List Sample} {i : Nat} (h : i < x.length / p.samples) :
    ((tabBits p sch x).drop (symbolWidth sch * i)).take (symbolWidth sch) =
      tabDecide p sch ((x.drop (p.samples * i)).take p.samples) := by
  have hi : i < (blocks x p.samples).length := by rwa [blocks_length]
  rw [tabBits, window_flatMap (symbolWidth_pos sch) (fun blk _ => tabDecide_length p sch blk) hi, getElem_blocks]

end TableSchemes

/-! ## Round trips -/

section CarrierRoundTrips

variable {p : Params} {sch : Scheme}

theorem carrierOk_iff : p.carrierOk = true ↔ 1 ≤ p.carrierFreq ∧ 4 * p.carrierFreq < p.samples := by
  simp [Params.carrierOk]

theorem askMean_eq (p : Params) : p.askMean = Sample.mean ((period p (sinRef p p.carrierFreq)).map Sample.abs) := by
  rw [Params.askMean, period, List.map_map]
  rfl

theorem askOk_iff :
    p.askOk = true ↔
      0 ≤ p.askThreshold.toReal ∧ p.askThreshold.toReal < p.askMean.toReal * p.carrierAmp.toReal := by
  simp [Params.askOk, ← Bool.not_eq_true, Sample.isNeg_iff, Sample.lt_iff]

/-- A 1's block has the mean absolute sample A_MAX·μ, a 0's block 0 (R194). -/
theorem mean_abs_askWave (hA : 0 < p.carrierAmp.toReal) (x : Bit) :
    (Sample.mean ((period p (askWave p x)).map Sample.abs)).toReal =
      if x then p.askMean.toReal * p.carrierAmp.toReal else 0 := by
  rw [mean_abs_period]
  cases x with
  | false => simp [askWave_toReal]
  | true =>
    rw [askMean_eq, mean_abs_period, div_mul_eq_mul_div, Finset.sum_mul]
    simp [askWave_toReal, abs_mul, abs_of_pos hA, mul_comm]

/-- The threshold lies between the two means (R211). -/
theorem askDecision_period (hA : 0 < p.carrierAmp.toReal) (hask : p.askOk = true) (x : Bit) :
    askDecision p (period p (askWave p x)) = x := by
  obtain ⟨hnonneg, hlt⟩ := askOk_iff.mp hask
  rw [Bool.eq_iff_iff, askDecision, Sample.lt_iff, mean_abs_askWave hA]
  cases x with
  | false => simp [hnonneg]
  | true => simp [hlt]

theorem correlate_fskWave (p : Params) (x : Bit) (f : Nat) :
    (correlate (sinRef p f) (period p (fskWave p x))).toReal =
      p.carrierAmp.toReal *
        ∑ j ∈ Finset.range p.samples, Real.sin (theta p (fskFreq p x) j) * Real.sin (theta p f j) := by
  simp only [correlate_period, fskWave_toReal, sinRef_toReal, mul_assoc, Finset.mul_sum]

/-- R191: a block correlates with its own tone. -/
theorem correlate_fskWave_own (hA : 0 < p.carrierAmp.toReal) (hf : 1 ≤ p.carrierFreq)
    (hS : 4 * p.carrierFreq < p.samples) (x : Bit) :
    0 < |(correlate (sinRef p (fskFreq p x)) (period p (fskWave p x))).toReal| := by
  have hSpos : (0 : ℝ) < p.samples := by exact_mod_cast Nat.zero_lt_of_lt hS
  have hfreq : 0 < fskFreq p x ∧ 2 * fskFreq p x < p.samples := by
    rw [fskFreq]
    split <;> omega
  obtain ⟨hpos, hlt⟩ := hfreq
  simp only [correlate_fskWave, ← sq, sum_sin_sq hpos hlt]
  positivity

/-- R191: a block does not correlate with the other bit's tone. -/
theorem correlate_fskWave_other (hf : 1 ≤ p.carrierFreq) (hS : 4 * p.carrierFreq < p.samples) (x : Bit) :
    (correlate (sinRef p (fskFreq p !x)) (period p (fskWave p x))).toReal = 0 := by
  have horth := sum_sin_mul_sin_double (p := p) hf (by omega)
  rw [correlate_fskWave]
  refine mul_eq_zero_of_right _ ?_
  cases x with
  | false => exact horth
  | true => exact (Finset.sum_congr rfl fun j _ => mul_comm _ _).trans horth

/-- The greater correlation is that of the block's own tone (R211). -/
theorem fskDecision_period (hA : 0 < p.carrierAmp.toReal) (hf : 1 ≤ p.carrierFreq)
    (hS : 4 * p.carrierFreq < p.samples) (x : Bit) : fskDecision p (period p (fskWave p x)) = x := by
  have hown := correlate_fskWave_own hA hf hS x
  have hother := correlate_fskWave_other hf hS x
  have hdec : fskDecision p (period p (fskWave p x)) = true ↔
      |(correlate (sinRef p (fskFreq p false)) (period p (fskWave p x))).toReal| <
      |(correlate (sinRef p (fskFreq p true)) (period p (fskWave p x))).toReal| := by
    rw [← Sample.abs_toReal, ← Sample.abs_toReal]
    exact Sample.lt_iff _ _
  rw [Bool.eq_iff_iff, hdec]
  cases x with
  | false =>
    rw [Bool.not_false] at hother
    simp [hother]
  | true =>
    rw [Bool.not_true] at hother
    simpa [hother] using hown

/-- A keyed signal whose blocks are decided right is read back. -/
theorem decisions_keyed {f : List Sample → Bool} {w : Bit → Nat → Sample} (hS : 0 < p.samples)
    (h : ∀ x, f (period p (w x)) = x) (b : BitSeq) :
    (blocks (b.flatMap fun x => period p (w x)) p.samples).map f = b :=
  decisions_flatMap hS (fun x => period_length p (w x)) h b

/-- R202: the projection identity, the in-phase part. -/
theorem inPhase_tabWave (hf : 1 ≤ p.carrierFreq) (hS : 2 * p.carrierFreq < p.samples) (e : SymEntry) :
    (inPhase p (tabWave p e)).toReal = p.carrierAmp.toReal * e.x.toReal := by
  have hSne : (p.samples : ℝ) ≠ 0 := by exact_mod_cast (Nat.zero_lt_of_lt hS).ne'
  have hsum : (correlate (cosRef p p.carrierFreq) (tabWave p e)).toReal =
      p.carrierAmp.toReal * e.x.toReal * (p.samples / 2) - p.carrierAmp.toReal * e.y.toReal * 0 := by
    rw [tabWave_eq, correlate_period, ← sum_cos_sq hf hS, ← sum_sin_mul_cos hf hS, Finset.mul_sum, Finset.mul_sum,
      ← Finset.sum_sub_distrib]
    refine Finset.sum_congr rfl fun j _ => ?_
    rw [entryWave_toReal, cosRef_toReal]
    ring
  rw [inPhase_toReal, hsum]
  field_simp
  ring

/-- R202: the projection identity, the quadrature part. -/
theorem quadrature_tabWave (hf : 1 ≤ p.carrierFreq) (hS : 2 * p.carrierFreq < p.samples) (e : SymEntry) :
    (quadrature p (tabWave p e)).toReal = p.carrierAmp.toReal * e.y.toReal := by
  have hSne : (p.samples : ℝ) ≠ 0 := by exact_mod_cast (Nat.zero_lt_of_lt hS).ne'
  have hsum : (correlate (fun j => (sinRef p p.carrierFreq j).neg) (tabWave p e)).toReal =
      p.carrierAmp.toReal * e.y.toReal * (p.samples / 2) - p.carrierAmp.toReal * e.x.toReal * 0 := by
    rw [tabWave_eq, correlate_period, ← sum_sin_sq hf hS, ← sum_sin_mul_cos hf hS, Finset.mul_sum, Finset.mul_sum,
      ← Finset.sum_sub_distrib]
    refine Finset.sum_congr rfl fun j _ => ?_
    rw [entryWave_toReal, Sample.neg_toReal, sinRef_toReal]
    ring
  rw [quadrature_toReal, hsum]
  field_simp
  ring

theorem SymEntry.samePoint_iff (e f : SymEntry) :
    e.samePoint f = true ↔ e.x.toReal = f.x.toReal ∧ e.y.toReal = f.y.toReal := by
  rw [SymEntry.samePoint, Bool.and_eq_true, Sample.same_iff, Sample.same_iff]

theorem SymTab.pairwise_of_distinct {t : SymTab} (h : SymTab.distinct t = true) :
    t.Pairwise fun e f => ¬ (e.samePoint f = true) := by
  induction t with
  | nil => exact .nil
  | cons e t ih =>
    rw [SymTab.distinct, Bool.and_eq_true, List.all_eq_true] at h
    obtain ⟨hhead, htail⟩ := h
    exact .cons (fun f hf => by simpa using hhead f hf) (ih htail)

theorem entryDistance_nonneg (u v : ℝ) (e : SymEntry) : 0 ≤ entryDistance u v e := by
  rw [entryDistance]
  positivity

theorem entryDistance_self (e : SymEntry) : entryDistance e.x.toReal e.y.toReal e = 0 := by
  simp [entryDistance]

theorem samePoint_of_entryDistance_eq_zero {e f : SymEntry} (h : entryDistance e.x.toReal e.y.toReal f = 0) :
    f.samePoint e = true := by
  rw [entryDistance, add_eq_zero_iff_of_nonneg (sq_nonneg _) (sq_nonneg _), sq_eq_zero_iff, sq_eq_zero_iff,
    sub_eq_zero, sub_eq_zero] at h
  obtain ⟨hx, hy⟩ := h
  exact (SymEntry.samePoint_iff f e).mpr ⟨hx.symm, hy.symm⟩

/-- Where the points are distinct, the entry at whose point one measures is the first nearest (R211). -/
theorem isFirstLeast_of_distinct {t : SymTab} (hdist : SymTab.distinct t = true) {g : Nat} {e : SymEntry}
    (hg : t[g]? = some e) : IsFirstLeast (entryDistance e.x.toReal e.y.toReal) t g e := by
  refine ⟨hg, fun h f hf => ?_⟩
  rw [entryDistance_self]
  refine ⟨entryDistance_nonneg _ _ f, fun hlt => (entryDistance_nonneg _ _ f).lt_of_ne fun hzero => ?_⟩
  obtain ⟨hh, hf'⟩ := List.getElem?_eq_some_iff.mp hf
  obtain ⟨hg', he'⟩ := List.getElem?_eq_some_iff.mp hg
  have hne := List.pairwise_iff_getElem.mp (SymTab.pairwise_of_distinct hdist) h g hh hg' hlt
  rw [hf', he'] at hne
  exact hne (samePoint_of_entryDistance_eq_zero hzero.symm)

/-- R211: a block measures the point of its tuple's entry, so the demodulator decides that tuple. -/
theorem tabDecide_tabWave (hA : 0 < p.carrierAmp.toReal) (hf : 1 ≤ p.carrierFreq)
    (hS : 4 * p.carrierFreq < p.samples) (htab : SymTab.wf (symbolWidth sch) (symTab p sch) = true) {g : BitSeq}
    (hg : g.length = symbolWidth sch) : tabDecide p sch (tabWave p (entryOf p sch g)) = g := by
  rw [SymTab.wf, Bool.and_eq_true, beq_iff_eq] at htab
  obtain ⟨hlen, hdist⟩ := htab
  have hS' : 2 * p.carrierFreq < p.samples := by omega
  have hsent := isFirstLeast_of_distinct hdist (getElem?_entryOf hlen hg)
  obtain ⟨e, hnear⟩ := nearest_entryDistance hA hlen (inPhase p (tabWave p (entryOf p sch g)))
    (quadrature p (tabWave p (entryOf p sch g)))
  rw [inPhase_tabWave hf hS', quadrature_tabWave hf hS', mul_div_cancel_left₀ _ hA.ne',
    mul_div_cancel_left₀ _ hA.ne'] at hnear
  rw [tabDecide, hnear.unique hsent, ← hg, beBits_val]

theorem tabBits_tabSignal (hA : 0 < p.carrierAmp.toReal) (hf : 1 ≤ p.carrierFreq)
    (hS : 4 * p.carrierFreq < p.samples) (htab : SymTab.wf (symbolWidth sch) (symTab p sch) = true) (b : BitSeq) :
    tabBits p sch (tabSignal p sch b) = padToWidth b (symbolWidth sch) := by
  have hgroups := length_of_mem_groupPad (symbolWidth_pos sch) b
  have hdecided : (groupPad b (symbolWidth sch)).map (tabDecide p sch ∘ fun g => tabWave p (entryOf p sch g)) =
      groupPad b (symbolWidth sch) :=
    (List.map_congr_left fun g hg => tabDecide_tabWave hA hf hS htab (hgroups g hg)).trans (List.map_id' _)
  rw [tabBits, tabSignal_eq, blocks_flatMap (Nat.zero_lt_of_lt hS) fun g _ => tabWave_length p _, List.flatMap_def,
    List.map_map, hdecided, flatten_groupPad (symbolWidth_pos sch)]

theorem tablesOk_symTab (h : p.tablesOk = true) (hs : hasTable sch) :
    SymTab.wf (symbolWidth sch) (symTab p sch) = true := by
  simp only [Params.tablesOk, Bool.and_eq_true] at h
  obtain ⟨⟨⟨hbpsk, hqpsk⟩, hpsk8⟩, hqam16⟩ := h
  cases sch with
  | ask | fsk => exact hs.elim
  | bpsk => exact hbpsk
  | qpsk => exact hqpsk
  | psk8 => exact hpsk8
  | qam16 => exact hqam16

theorem carrierReady_of_ok (hcarrier : p.carrierOk = true) (htabs : p.tablesOk = true) (sch : Scheme) :
    carrierReady p sch := by
  obtain ⟨hf, hS⟩ := carrierOk_iff.mp hcarrier
  refine ⟨hf, hS, fun hs => ?_⟩
  have hwf := tablesOk_symTab htabs hs
  rw [SymTab.wf, Bool.and_eq_true, beq_iff_eq] at hwf
  obtain ⟨hlen, -⟩ := hwf
  exact hlen

/-- R211: each scheme's decisions on its own waveform are the bits with the padding of the last tuple. -/
theorem schemeBits_schemeSignal (hA : 0 < p.carrierAmp.toReal) (hcarrier : p.carrierOk = true)
    (hask : p.askOk = true) (htabs : p.tablesOk = true) (sch : Scheme) (b : BitSeq) :
    schemeBits p sch (schemeSignal p sch b) = padToWidth b (symbolWidth sch) := by
  obtain ⟨hf, hS⟩ := carrierOk_iff.mp hcarrier
  have hpos : 0 < p.samples := Nat.zero_lt_of_lt hS
  cases sch with
  | ask => exact (decisions_keyed hpos (askDecision_period hA hask) b).trans (padToWidth_one b).symm
  | fsk => exact (decisions_keyed hpos (fskDecision_period hA hf hS) b).trans (padToWidth_one b).symm
  | bpsk | qpsk | psk8 | qam16 => exact tabBits_tabSignal hA hf hS (tablesOk_symTab htabs (by trivial)) b

end CarrierRoundTrips

/-! ## The obligations -/

/-- Settles O27: a sample of the keyed signal is a sample of its bit's period. -/
theorem askAndFskModulate : Obligations.AskAndFskModulate := by
  unfold Obligations.AskAndFskModulate
  intro s hf hS
  have hask : carrierReady s.params .ask := ⟨hf, hS, False.elim⟩
  have hfsk : carrierReady s.params .fsk := ⟨hf, hS, False.elim⟩
  obtain ⟨hasklen, haskval⟩ := keyed_spec (p := s.params) (askWave s.params) s.inBits
  obtain ⟨hfsklen, hfskval⟩ := keyed_spec (p := s.params) (fskWave s.params) s.inBits
  refine ⟨⟨askSignal s.params s.inBits, exec_modOf_of_ready s hask, hasklen, fun i j hi hj => ?_⟩,
    ⟨fskSignal s.params s.inBits, exec_modOf_of_ready s hfsk, hfsklen, fun i j hi hj => ?_⟩⟩
  · exact (haskval i j hi hj).trans (askWave_toReal _ _ _)
  · exact (hfskval i j hi hj).trans (fskWave_toReal _ _ _)

/-- Settles O28: bit i is the decision on block i, a window of the signal. -/
theorem askAndFskDemodulate : Obligations.AskAndFskDemodulate := by
  unfold Obligations.AskAndFskDemodulate
  intro s hf hS
  have hask : carrierReady s.params .ask := ⟨hf, hS, False.elim⟩
  have hfsk : carrierReady s.params .fsk := ⟨hf, hS, False.elim⟩
  exact ⟨⟨askBits s.params s.inSig, exec_demOf_of_ready s hask, askBits_spec _ _⟩,
    ⟨fskBits s.params s.inSig, exec_demOf_of_ready s hfsk, fskBits_spec _ _⟩⟩

/-- Settles O29: symbol i is the period of its tuple's entry, by any polar form of the entry's point. -/
theorem tableModulate : Obligations.TableModulate := by
  unfold Obligations.TableModulate
  intro s sch hs hready
  have hexec := exec_modOf_of_ready s hready
  rw [schemeSignal_of_hasTable hs] at hexec
  obtain ⟨-, -, htab⟩ := hready
  refine ⟨tabSignal s.params sch s.inBits, hexec, tabSignal_length _ _ _, fun i j hi hj => ?_⟩
  have hi' : i < (groupPad s.inBits (symbolWidth sch)).length := (groupPad_length _ _).symm ▸ hi
  have htuple := getElem_groupPad (symbolWidth_pos sch) s.inBits hi'
  have hwidth := length_of_mem_groupPad (symbolWidth_pos sch) s.inBits _ (List.getElem_mem hi')
  rw [← htuple]
  refine ⟨_, getElem?_entryOf (htab hs) hwidth, fun a φ hx hy => ?_⟩
  rw [valueAt_tabSignal _ hi' hj, entryWave_polar hx hy]

/-- Settles O30: the scan of the table keeps the first entry of the least distance. -/
theorem tableDemodulate : Obligations.TableDemodulate := by
  unfold Obligations.TableDemodulate
  intro s sch hs hready hA
  have hexec := exec_demOf_of_ready s hready
  rw [schemeBits_of_hasTable hs] at hexec
  obtain ⟨-, -, htab⟩ := hready
  refine ⟨tabBits s.params sch s.inSig, hexec, tabBits_length _ _ _, fun i hi => ?_⟩
  have hin := block_end_le hi
  obtain ⟨e, hget, hleast⟩ := nearest_entryDistance hA (htab hs)
    (inPhase s.params ((s.inSig.drop (s.params.samples * i)).take s.params.samples))
    (quadrature s.params ((s.inSig.drop (s.params.samples * i)).take s.params.samples))
  rw [← blockI_eq hin, ← blockQ_eq hin] at hleast
  exact ⟨_, e, hget, window_tabBits hi, hleast⟩

/-- Settles O32: the period of each symbol is decided to be that symbol. -/
theorem carrierRoundTrip : Obligations.CarrierRoundTrip := by
  unfold Obligations.CarrierRoundTrip
  intro s sch hamps hcarrier hask htabs
  rw [Params.ampsOk, Bool.and_eq_true, Sample.isPos_iff, Sample.isPos_iff] at hamps
  obtain ⟨-, hA⟩ := hamps
  have hready := carrierReady_of_ok hcarrier htabs sch
  exact ⟨_, _, exec_modOf_of_ready s hready, exec_demOf_of_ready _ hready,
    congrArg Buf.bits (schemeBits_schemeSignal hA hcarrier hask htabs sch s.inBits)⟩

end Sys2Proof.Machine
end

section
/-! PROOFS. The family 44_bridge_channel.md. A sample of the linear paths and of the channel is computed from the
samples of IN beside it, missing ones being zero, so the signals are read through `valueAt`. The complex path is cut into
its two stages, and the channel into the intensities that pass the signal and those that add draws to it. -/

namespace Sys2Proof.Machine

open Sys2Proof.Pseudocode

/-! ## The samples of a signal -/

section Samples

variable {x y : List Sample} {n k : Nat}

theorem valueAt_of_length_le (h : x.length ≤ n) : valueAt x n = 0 := by
  rw [valueAt, List.getD_eq_default _ _ h, Sample.zero_toReal]

theorem valueAt_of_lt (h : n < x.length) : valueAt x n = x[n].toReal := by
  rw [valueAt, List.getD_eq_getElem _ _ h]

theorem valueAt_append (x y : List Sample) (n : Nat) :
    valueAt (x ++ y) n = if n < x.length then valueAt x n else valueAt y (n - x.length) := by
  simp only [valueAt]
  split
  next h => rw [List.getD_append _ _ _ _ h]
  next h => rw [List.getD_append_right _ _ _ _ (not_lt.mp h)]

theorem valueAt_replicate_zero (k n : Nat) : valueAt (List.replicate k Sample.zero) n = 0 := by
  rcases Nat.lt_or_ge n k with h | h
  · rw [valueAt_of_lt (List.length_replicate.symm ▸ h), List.getElem_replicate, Sample.zero_toReal]
  · exact valueAt_of_length_le (List.length_replicate.le.trans h)

theorem valueAt_take (h : n < k) : valueAt (x.take k) n = valueAt x n := by
  rw [valueAt, valueAt, List.getD_eq_getElem?_getD, List.getD_eq_getElem?_getD, List.getElem?_take_of_lt h]

theorem valueAt_map_range (f : Nat → Sample) (h : n < k) : valueAt ((List.range k).map f) n = (f n).toReal := by
  rw [valueAt_of_lt (by simpa using h), List.getElem_map, List.getElem_range]

/-- A decision or a filter on each sample, read as a real function `g` of the samples. -/
theorem valueAt_map {f : Sample → Sample} {g : ℝ → ℝ} (hf : ∀ v, (f v).toReal = g v.toReal) (h : n < x.length) :
    valueAt (x.map f) n = g (valueAt x n) := by
  rw [valueAt_of_lt (by simpa using h), valueAt_of_lt h, List.getElem_map, hf]

/-- A signal between zeros: a missing neighbour counts as zero (R224). -/
theorem valueAt_zeros_append_zeros (x : List Sample) (k m n : Nat) :
    valueAt (List.replicate k Sample.zero ++ x ++ List.replicate m Sample.zero) n =
      if k ≤ n then valueAt x (n - k) else 0 := by
  rw [List.append_assoc, valueAt_append, valueAt_append, List.length_replicate, valueAt_replicate_zero,
    valueAt_replicate_zero]
  by_cases hk : k ≤ n
  · rw [if_neg (by omega), if_pos hk]
    split
    next => rfl
    next h => rw [valueAt_of_length_le (not_lt.mp h)]
  · rw [if_pos (by omega), if_neg hk]

theorem sum_window (h : n + k ≤ x.length) :
    (Sample.sum ((x.drop n).take k)).toReal = ∑ d ∈ Finset.range k, valueAt x (n + d) := by
  rw [Sample.sum_toReal, window_eq_map Sample.zero h, List.map_map]
  rfl

end Samples

/-! ## The linear paths -/

section LinearPaths

variable {p : Params} {s : State}

@[simp] theorem timesRef_length (p : Params) (x : List Sample) : (timesRef p x).length = x.length :=
  List.length_mapIdx

/-- R221: every sample is multiplied by the reference of its place, those outside the signal being zero. -/
theorem valueAt_timesRef (p : Params) (x : List Sample) (n : Nat) : valueAt (timesRef p x) n = mixedAt p x n := by
  rw [mixedAt]
  rcases Nat.lt_or_ge n x.length with h | h
  · rw [valueAt_of_lt ((timesRef_length p x).symm ▸ h), valueAt_of_lt h]
    simp [timesRef, refSine]
  · rw [valueAt_of_length_le h, valueAt_of_length_le ((timesRef_length p x).le.trans h), zero_mul]

@[simp] theorem lpf_length (p : Params) (x : List Sample) : (lpf p x).length = x.length := by simp [lpf]

/-- R224: the window cut out of the extended signal is the centred window of the statement. -/
theorem valueAt_lpf (hcentred : p.lpfAlign = .centred) {x : List Sample} {n : Nat} (h : n < x.length) :
    valueAt (lpf p x) n = centredFilter (lpfWindow p) (valueAt x) n := by
  have hback : lpfBack p = (lpfWindow p - 1) / 2 := by rw [lpfBack, hcentred]
  rw [lpf, valueAt_map_range _ h, Sample.scale_toReal, sum_window (by simp; omega), centredFilter]
  simp only [valueAt_zeros_append_zeros, hback]
  push_cast
  rfl

/-- A linear path's operation, on a build that has a carrier, leaves its signal and does not warn. -/
theorem exec_of_linearPath (hf : 1 ≤ s.params.carrierFreq) (hS : 4 * s.params.carrierFreq < s.params.samples)
    {i : Instr} {x : List Sample} (hexec : exec i s = .next (s.finish (asSamples (linearPath s.params x)))) :
    exec i s = .next { s with out := .samples x, result := .done } := by
  rw [hexec, State.finish_asSamples, linearPath, carrierParams_of_lt hf hS, State.finishAs_silent]

@[simp] theorem askForward_length (p : Params) (v : List Sample) : (askForward p v).length = v.length := by
  simp [askForward]

@[simp] theorem bpskReverse_length (p : Params) (y : List Sample) : (bpskReverse p y).length = y.length := by
  simp [bpskReverse]

@[simp] theorem askReverse_length (p : Params) (y : List Sample) : (askReverse p y).length = y.length := by
  simp [askReverse]

/-- R222: the clamped sample times the reference. -/
theorem valueAt_askForward {v : List Sample} {n : Nat} (h : n < v.length) :
    valueAt (askForward p v) n = max (valueAt v n) 0 * Real.sin (theta p p.carrierFreq (n % p.samples)) := by
  rw [askForward, valueAt_timesRef, mixedAt, valueAt_map (g := (max · 0)) Sample.posPart_toReal h]

/-- R226: the mixed signal, filtered. -/
theorem valueAt_bpskReverse (hcentred : p.lpfAlign = .centred) {y : List Sample} {n : Nat} (h : n < y.length) :
    valueAt (bpskReverse p y) n = centredFilter (lpfWindow p) (mixedAt p y) n := by
  rw [bpskReverse, valueAt_lpf hcentred ((timesRef_length p y).symm ▸ h), funext (valueAt_timesRef p y)]

/-- R225: the clean level that a filtered sample is decided to, strictly above the threshold or not. -/
theorem bridgeDecision_toReal (p : Params) (f : Sample) :
    (if p.bridgeThreshold.lt f then Sample.ofRat 1 else Sample.ofRat (-1)).toReal =
      if p.bridgeThreshold.toReal < f.toReal then 1 else -1 := by
  simp only [Sample.lt_iff]
  split <;> simp

/-- R225: the decisions on what the BPSK reverse path leaves. -/
theorem valueAt_askReverse (hcentred : p.lpfAlign = .centred) {y : List Sample} {n : Nat} (h : n < y.length) :
    valueAt (askReverse p y) n =
      if p.bridgeThreshold.toReal < centredFilter (lpfWindow p) (mixedAt p y) n then 1 else -1 := by
  rw [← valueAt_bpskReverse hcentred h]
  exact valueAt_map (g := fun f => if p.bridgeThreshold.toReal < f then 1 else -1) (bridgeDecision_toReal p)
    ((bpskReverse_length p y).symm ▸ h)

end LinearPaths

/-! ## The complex path -/

section ComplexPath

variable {p : Params} {c : LineCode} {sch : Scheme}

theorem lineDecode_of_ready (h : lineReady p c) (x : List Sample) : ∃ b w, lineDecode p c x = .ok (b, w) := by
  cases c with
  | nrz | bipolar => exact ⟨_, _, rfl⟩
  | manchester => exact ⟨_, _, manDecode_of_even (h rfl) x⟩

theorem lineEncode_of_ready (h : lineReady p c) (b : BitSeq) : ∃ x, lineEncode p c b = .ok (x, false) := by
  cases c with
  | nrz | bipolar => exact ⟨_, rfl⟩
  | manchester => exact ⟨_, manEncode_of_even (h rfl) b⟩

theorem bridgeForward_of_complex (h : onComplexPath sch) (v : List Sample) :
    bridgeForward p c sch v = complexForward p c sch v := by
  cases sch with
  | ask | bpsk => exact h.elim
  | fsk | qpsk | psk8 | qam16 => rfl

theorem bridgeReverse_of_complex (h : onComplexPath sch) (y : List Sample) :
    bridgeReverse p c sch y = complexReverse p c sch y := by
  cases sch with
  | ask | bpsk => exact h.elim
  | fsk | qpsk | psk8 | qam16 => rfl

theorem complexForward_of_stages {v x : List Sample} {b : BitSeq} {w w' : Bool}
    (hdec : lineDecode p c v = .ok (b, w)) (hmod : carrierMod p sch b = .ok (x, w')) :
    complexForward p c sch v = .ok (x, w || w') := by
  simp only [complexForward, hdec, hmod]

theorem complexReverse_of_stages {y x : List Sample} {b : BitSeq} {w w' : Bool}
    (hdem : carrierDem p sch y = .ok (b, w)) (henc : lineEncode p c b = .ok (x, w')) :
    complexReverse p c sch y = .ok (x, w || w') := by
  simp only [complexReverse, hdem, henc]

/-- An operation that leaves bits, and a second one that runs on them: what both leave together in OUT and WARN is what
one operation leaves whose stage function has the second one's output and warns when either of them does. -/
theorem finishAs_compose (s : State) {i j k : Instr} {b : BitSeq} {x : List Sample} {w w' : Bool}
    (hi : exec i s = .next (s.finishAs .bits (.ok (b, w))))
    (hj : ∀ t : State, t.params = s.params → t.inBits = b → exec j t = .next (t.finishAs .samples (.ok (x, w'))))
    (hk : exec k s = .next (s.finishAs .samples (.ok (x, w || w')))) :
    ∃ t u, exec i s = .next t ∧ exec j t.chain = .next u ∧ u.result = .done ∧
      exec k s = .next { s with out := u.out, warn := u.warn, result := .done } := by
  refine ⟨_, _, hi, hj _ (State.chain_params _) rfl, rfl, hk.trans ?_⟩
  simp [State.finishAs_ok, Bool.or_assoc]

end ComplexPath

/-! ## The channel -/

section Channel

theorem passThrough_eq_true_iff {a : SigmaArg} : passThrough a = true ↔ ∃ q, a = .real q ∧ q.toReal ≤ 0 := by
  cases a with
  | real q => simp [passThrough, ← Bool.not_eq_true, Sample.isPos_iff]
  | notReal => simp [passThrough]

theorem passThrough_eq_false_iff {a : SigmaArg} :
    passThrough a = false ↔ a = .notReal ∨ ∃ q, a = .real q ∧ 0 < q.toReal := by
  cases a with
  | real q => simp [passThrough, Sample.isPos_iff]
  | notReal => simp [passThrough]

theorem State.channel_of_pass (s : State) {a : SigmaArg} (h : passThrough a = true) (x : List Sample) :
    s.channelOut a x = x ∧ s.channelDone a x = s := by
  simp [State.channelOut, State.channelDone, h]

theorem State.channel_of_noise (s : State) {a : SigmaArg} (h : passThrough a = false) (x : List Sample) :
    s.channelOut a x = addNoise x (s.draws x.length) ∧ s.channelDone a x = s.afterDraws x.length := by
  simp [State.channelOut, State.channelDone, h]

theorem exec_chNoise (s : State) :
    exec .chNoise s = .next ((s.channelDone s.inSigma s.inSig).emit (.samples (s.channelOut s.inSigma s.inSig))) := rfl

theorem valueAt_addNoise {x d : List Sample} {n : Nat} (hx : n < x.length) (hd : n < d.length) :
    valueAt (addNoise x d) n = valueAt x n + valueAt d n := by
  have hlen : n < (addNoise x d).length := by rw [addNoise, List.length_zipWith]; omega
  rw [valueAt_of_lt hlen, valueAt_of_lt hx, valueAt_of_lt hd, ← Sample.add_toReal]
  exact congrArg Sample.toReal List.getElem_zipWith

/-- Draw n of k: a supplied one, or the free value of its place after them (log 7). -/
theorem valueAt_draws (s : State) {n k : Nat} (h : n < k) :
    valueAt (s.draws k) n =
      if n < s.noise.length then valueAt s.noise n
      else (Config.noise (s.noiseIx + (n - s.noise.length))).toReal := by
  rw [State.draws, valueAt_append, List.length_take]
  by_cases hn : n < s.noise.length
  · rw [if_pos (lt_min h hn), if_pos hn, valueAt_take h]
  · have hmin : min k s.noise.length = s.noise.length := by omega
    rw [hmin, if_neg hn, if_neg hn, valueAt_map_range _ (by omega)]

end Channel

/-! ## The obligations -/

/-- Settles O33: a sample of the forward paths is a sample of the signal, clamped or not, times the reference. -/
theorem linearBridgeForward : Obligations.LinearBridgeForward := by
  unfold Obligations.LinearBridgeForward
  intro s hf hS
  refine ⟨⟨askForward s.params s.inSig, exec_of_linearPath hf hS rfl, askForward_length _ _, fun n hn => ?_⟩,
    ⟨bpskForward s.params s.inSig, exec_of_linearPath hf hS rfl, timesRef_length _ _, fun n _ => ?_⟩⟩
  · exact valueAt_askForward (askForward_length s.params s.inSig ▸ hn)
  · exact valueAt_timesRef _ _ n

/-- Settles O34: the filter's window, cut out of the zero-extended signal, is the centred one. -/
theorem linearBridgeReverse : Obligations.LinearBridgeReverse := by
  unfold Obligations.LinearBridgeReverse
  intro s hf hS hcentred
  refine ⟨⟨askReverse s.params s.inSig, exec_of_linearPath hf hS rfl, askReverse_length _ _, fun n hn => ?_⟩,
    ⟨bpskReverse s.params s.inSig, exec_of_linearPath hf hS rfl, bpskReverse_length _ _, fun n hn => ?_⟩⟩
  · exact valueAt_askReverse hcentred (askReverse_length s.params s.inSig ▸ hn)
  · exact valueAt_bpskReverse hcentred (bpskReverse_length s.params s.inSig ▸ hn)

/-- Settles O35: on such a build no stage is refused, so the path's output and warning are those of its two stages. -/
theorem complexBridgeComposes : Obligations.ComplexBridgeComposes := by
  unfold Obligations.ComplexBridgeComposes
  intro s sch hpath hvalid hcarrier hline
  constructor
  · obtain ⟨b, w, hdec⟩ := lineDecode_of_ready hline s.inSig
    have hmod := carrierMod_of_ready hcarrier b
    exact finishAs_compose s (by rw [exec_lineDecOf, hdec]) (fun t hp hb => by rw [exec_modOf, hp, hb, hmod])
      (by rw [exec_forwardOf s sch hvalid, bridgeForward_of_complex hpath, complexForward_of_stages hdec hmod])
  · have hdem := carrierDem_of_ready hcarrier s.inSig
    obtain ⟨x, henc⟩ := lineEncode_of_ready hline (schemeBits s.params sch s.inSig)
    exact finishAs_compose s (by rw [exec_demOf, hdem]) (fun t hp hb => by rw [exec_lineEncOf, hp, hb, henc])
      (by rw [exec_reverseOf s sch hvalid, bridgeReverse_of_complex hpath, complexReverse_of_stages hdem henc])

/-- Settles O37: the channel passes the signal, or adds to sample n the draw n. -/
theorem channelNoiseResult : Obligations.ChannelNoiseResult := by
  unfold Obligations.ChannelNoiseResult
  intro s
  refine ⟨fun q hq hle => ?_, fun hnoisy => ?_⟩
  · obtain ⟨hout, hdone⟩ := s.channel_of_pass (passThrough_eq_true_iff.mpr ⟨q, hq, hle⟩) s.inSig
    rw [exec_chNoise, hout, hdone, State.emit]
  · obtain ⟨hout, hdone⟩ := s.channel_of_noise (passThrough_eq_false_iff.mpr hnoisy) s.inSig
    have hlen := s.channelOut_length s.inSigma s.inSig
    refine ⟨s.channelOut s.inSigma s.inSig, ?_, hlen, fun n hn => ?_⟩
    · rw [exec_chNoise, hdone, State.emit, State.afterDraws]
    · rw [hlen] at hn
      rw [hout, valueAt_addNoise hn ((s.draws_length _).symm ▸ hn), valueAt_draws s hn]

end Sys2Proof.Machine
end

section
/-! PROOFS. The family 45_pipeline.md. `step_outcome` says once what a step can do to the run: the host leaves it alone,
writes CFG or has a text accepted, both from Idle only, or the sequencer takes a stage, which moves the run on, ends it
with a fault or publishes. O55, O46 and O45 are read off from it. The noiseless run (O56) composes the round trips of
the stages; only byte stuffing hands on more than it was given, fewer than 8 zeros, which every error-control scheme and the
text decoder pass over. -/

namespace Sys2Proof.Machine

open Sys2Proof.Pseudocode

/-! ## Text conversion -/

section TextConversion

variable {t : Text} {x : BitSeq}

theorem firstBadChar_eq_none_iff : firstBadChar t = none ↔ charsOk t := by
  simp [firstBadChar, charsOk]

theorem firstBadChar_of_first {i : Nat} (hwide : 255 < t.getD i 0) (hfirst : ∀ j, j < i → t.getD j 0 ≤ 255) :
    firstBadChar t = some i := by
  have hi : i < t.length := by
    by_contra hout
    rw [List.getD_eq_default _ _ (not_lt.mp hout)] at hwide
    exact absurd hwide (by decide)
  rw [firstBadChar, List.findIdx?_eq_some_iff_getElem]
  refine ⟨hi, ?_, fun j hj => ?_⟩
  · rw [List.getD_eq_getElem _ _ hi] at hwide
    simpa using hwide
  · have hle := hfirst j hj
    rw [List.getD_eq_getElem _ _ (hj.trans hi)] at hle
    simpa using hle

theorem textEncode_of_charsOk (h : charsOk t) : textEncode t = .ok (textBits t, false) := by
  simp only [textEncode, firstBadChar_eq_none_iff.mpr h]

theorem textEncode_of_firstBadChar {i : Nat} (h : firstBadChar t = some i) :
    textEncode t = .error ⟨.invalidChar, .char i⟩ := by
  simp only [textEncode, h]

/-- R242, byte by byte. -/
theorem textDecode_eq (b : BitSeq) :
    textDecode b = (List.range (b.length / 8)).map fun k => val ((b.drop (8 * k)).take 8) := by
  rw [textDecode, chunkTrunc, complete, groupsOf_eq_map, List.map_map]
  rfl

/-- A byte has one of 256 values. -/
theorem charsOk_textDecode (b : BitSeq) : charsOk (textDecode b) := by
  intro c hc
  obtain ⟨g, hg, rfl⟩ := List.mem_map.mp hc
  have hlen : g.length = 8 := length_of_mem_groupsOf (Nat.mul_div_le _ _) g hg
  have hlt := val_lt g
  rw [hlen] at hlt
  exact Nat.le_of_lt_succ hlt

theorem textDecode_of_length_lt (h : x.length < 8) : textDecode x = [] := by
  rw [textDecode_eq, Nat.div_eq_of_lt h]
  rfl

theorem textDecode_byte_append {g : BitSeq} (h : g.length = 8) (x : BitSeq) :
    textDecode (g ++ x) = val g :: textDecode x :=
  congrArg (List.map val) (blocks_append (by omega) h x)

theorem textBits_length (t : Text) : (textBits t).length = 8 * t.length := by
  simp [textBits, List.length_flatMap, Nat.mul_comm]

/-- R243, also where less than a byte follows the text's bits. -/
theorem textDecode_textBits_append (ht : charsOk t) (hx : x.length < 8) : textDecode (textBits t ++ x) = t := by
  induction t with
  | nil => exact textDecode_of_length_lt hx
  | cons c t ih =>
    obtain ⟨hc, ht⟩ := List.forall_mem_cons.mp ht
    have hsplit : textBits (c :: t) ++ x = beBits 8 c ++ (textBits t ++ x) := List.append_assoc _ _ _
    rw [hsplit, textDecode_byte_append (beBits_length 8 c), val_beBits_of_lt (Nat.lt_succ_of_le hc), ih ht]

end TextConversion

/-! ## The configuration record -/

section ConfigurationRecord

theorem lineOf_cases {n : Nat} (h : n < 4) :
    (n = 3 ∧ lineOf n = .error .line) ∨ (n ≠ 3 ∧ ∃ l, lineOf n = .ok l ∧ lineBits l = n) :=
  match n, h with
  | 0, _ => .inr ⟨by decide, .nrz, rfl, rfl⟩
  | 1, _ => .inr ⟨by decide, .manchester, rfl, rfl⟩
  | 2, _ => .inr ⟨by decide, .bipolar, rfl, rfl⟩
  | 3, _ => .inl ⟨rfl, rfl⟩

theorem carrierOf_cases {n : Nat} (h : n < 8) :
    (n = 7 ∧ carrierOf n = .error .carrier) ∨ (n ≠ 7 ∧ ∃ c, carrierOf n = .ok c) :=
  match n, h with
  | 7, _ => .inl ⟨rfl, rfl⟩
  | 0, _ | 1, _ | 2, _ | 3, _ | 4, _ | 5, _ | 6, _ => .inr ⟨by decide, _, rfl⟩

theorem framingOf_cases {n : Nat} (h : n < 4) :
    (n = 3 ∧ framingOf n = .error .framing) ∨ (n ≠ 3 ∧ ∃ f, framingOf n = .ok f) :=
  match n, h with
  | 3, _ => .inl ⟨rfl, rfl⟩
  | 0, _ | 1, _ | 2, _ => .inr ⟨by decide, _, rfl⟩

theorem ecOf_cases {n : Nat} (h : n < 8) :
    (5 ≤ n ∧ ecOf n = .error .ec) ∨ (¬ 5 ≤ n ∧ ∃ e, ecOf n = .ok e) :=
  match n, h with
  | 5, _ | 6, _ | 7, _ => .inl ⟨by decide, rfl⟩
  | 0, _ | 1, _ | 2, _ | 3, _ | 4, _ => .inr ⟨by decide, _, rfl⟩

theorem reservedOf_cases (n : Nat) : (n ≠ 0 ∧ reservedOf n = .error .reserved) ∨ (n = 0 ∧ reservedOf n = .ok ()) :=
  match n with
  | 0 => .inr ⟨rfl, rfl⟩
  | _ + 1 => .inl ⟨Nat.succ_ne_zero _, rfl⟩

theorem sigmaOf_cases (a : SigmaArg) :
    (sigmaOk a = false ∧ sigmaOf a = .error .sigma) ∨
      (sigmaOk a = true ∧ ∃ q, sigmaOf a = .ok q ∧ q.isNeg = false) := by
  cases a with
  | notReal => exact .inl ⟨rfl, rfl⟩
  | real q => cases hq : q.isNeg <;> simp [sigmaOk, sigmaOf, hq]

/-- The fields are read in R274's order: the record's first bad field is refused, or there is none, and the
configuration has the record's line code and a sigma that is not negative. -/
theorem configOf_cases (w : CfgWord) (a : SigmaArg) :
    (∃ f, firstBadField w.toNat a = some f ∧ configOf w a = .error f) ∨
    (firstBadField w.toNat a = none ∧
      ∃ c, configOf w a = .ok c ∧ lineBits c.line = w.toNat % 4 ∧ c.sigma.isNeg = false) := by
  have hline : cfgBits w 0 2 = w.toNat % 4 := by simp [cfgBits]
  have hcarrier : cfgBits w 2 3 = w.toNat / 4 % 8 := rfl
  have hframing : cfgBits w 6 2 = w.toNat / 64 % 4 := rfl
  have hec : cfgBits w 8 3 = w.toNat / 256 % 8 := rfl
  have hreserved : cfgBits w 11 5 = w.toNat / 2048 := by have := w.isLt; simp only [cfgBits]; omega
  simp only [configOf, hline, hcarrier, hframing, hec, hreserved, bind, Except.bind, pure, Except.pure]
  rcases lineOf_cases (n := w.toNat % 4) (by omega) with ⟨h1, r1⟩ | ⟨h1, l, r1, hl⟩
  · exact .inl ⟨.line, by simp [firstBadField, h1], by simp [r1]⟩
  rcases carrierOf_cases (n := w.toNat / 4 % 8) (by omega) with ⟨h2, r2⟩ | ⟨h2, c, r2⟩
  · exact .inl ⟨.carrier, by simp [firstBadField, h1, h2], by simp [r1, r2]⟩
  rcases framingOf_cases (n := w.toNat / 64 % 4) (by omega) with ⟨h3, r3⟩ | ⟨h3, f, r3⟩
  · exact .inl ⟨.framing, by simp [firstBadField, h1, h2, h3], by simp [r1, r2, r3]⟩
  rcases ecOf_cases (n := w.toNat / 256 % 8) (by omega) with ⟨h4, r4⟩ | ⟨h4, e, r4⟩
  · exact .inl ⟨.ec, by simp [firstBadField, h1, h2, h3, h4], by simp [r1, r2, r3, r4]⟩
  rcases reservedOf_cases (w.toNat / 2048) with ⟨h5, r5⟩ | ⟨h5, r5⟩
  · exact .inl ⟨.reserved, by simp only [firstBadField, if_neg h1, if_neg h2, if_neg h3, if_neg h4, if_pos h5],
      by simp [r1, r2, r3, r4, r5]⟩
  rcases sigmaOf_cases a with ⟨h6, r6⟩ | ⟨h6, q, r6, hq⟩
  · exact .inl ⟨.sigma, by simp only [firstBadField, if_neg h1, if_neg h2, if_neg h3, if_neg h4, h5, h6]; rfl,
      by simp [r1, r2, r3, r4, r5, r6]⟩
  · refine .inr ⟨by simp only [firstBadField, if_neg h1, if_neg h2, if_neg h3, if_neg h4, h5, h6]; rfl,
      { line := l, carrier := c, carrierEn := cfgBits w 5 1 == 1, framing := f, ec := e, sigma := q }, ?_, hl, hq⟩
    simp only [r1, r2, r3, r4, r5, r6]

theorem lineOf_lineBits (l : LineCode) : lineOf (lineBits l) = .ok l := by cases l <;> rfl

theorem carrierOf_carrierBits (c : Carrier) : carrierOf (carrierBits c) = .ok c := by
  rcases c with _ | s
  · rfl
  · cases s <;> rfl

theorem framingOf_framingBits (f : Framing) : framingOf (framingBits f) = .ok f := by cases f <;> rfl

theorem ecOf_ecBits (e : ErrorControl) : ecOf (ecBits e) = .ok e := by cases e <;> rfl

theorem lineBits_lt (l : LineCode) : lineBits l < 4 := by cases l <;> decide

theorem carrierBits_lt (c : Carrier) : carrierBits c < 8 := by
  rcases c with _ | s
  · decide
  · cases s <;> decide

theorem framingBits_lt (f : Framing) : framingBits f < 4 := by cases f <;> decide

theorem ecBits_lt (e : ErrorControl) : ecBits e < 8 := by cases e <;> decide

/-- Each field of a packed word is where R66 places it. -/
theorem cfgBits_packed (c : PipeCfg) :
    cfgBits (packed c) 0 2 = lineBits c.line ∧ cfgBits (packed c) 2 3 = carrierBits c.carrier ∧
    cfgBits (packed c) 5 1 = c.carrierEn.toNat ∧ cfgBits (packed c) 6 2 = framingBits c.framing ∧
    cfgBits (packed c) 8 3 = ecBits c.ec ∧ cfgBits (packed c) 11 5 = 0 := by
  have hline := lineBits_lt c.line
  have hcarrier := carrierBits_lt c.carrier
  have henabled := c.carrierEn.toNat_lt
  have hframing := framingBits_lt c.framing
  have hec := ecBits_lt c.ec
  simp only [cfgBits, packed, BitVec.toNat_ofNat]
  omega

theorem configOf_packed {c : PipeCfg} (h : c.sigma.isNeg = false) : configOf (packed c) (.real c.sigma) = .ok c := by
  obtain ⟨hline, hcarrier, henabled, hframing, hec, hreserved⟩ := cfgBits_packed c
  have hbit : (c.carrierEn.toNat == 1) = c.carrierEn := by cases c.carrierEn <;> rfl
  simp only [configOf, hline, hcarrier, henabled, hframing, hec, hreserved, lineOf_lineBits, carrierOf_carrierBits,
    framingOf_framingBits, ecOf_ecBits, reservedOf, sigmaOf, h, hbit, bind, Except.bind, pure, Except.pure,
    Bool.false_eq_true, if_false]

theorem Sample.isNeg_eq_false_iff (x : Sample) : x.isNeg = false ↔ 0 ≤ x.toReal := by
  rw [← Bool.not_eq_true, Sample.isNeg_iff, not_lt]

variable {s : State} {c : PipeCfg}

theorem configParams_of_ready {p : Params} (h : lineReady p c.line) : configParams p c = .ok () :=
  if_neg fun ⟨hman, hodd⟩ => hodd (h hman)

theorem configParams_of_odd {p : Params} (hman : c.line = .manchester) (hodd : p.samples % 2 = 1) :
    configParams p c = .error ⟨.invalidParameter, .param .samples⟩ :=
  if_pos ⟨hman, by omega⟩

theorem line_eq_manchester {l : LineCode} (h : lineBits l = 1) : l = .manchester := by
  cases l with
  | manchester => rfl
  | nrz | bipolar => cases h

theorem requestedCfg_of_badField {f : CfgField} (h : configOf s.inCfgw s.inSigma = .error f) :
    requestedCfg s = .error ⟨.invalidConfig, .field f⟩ := by
  simp only [requestedCfg, h]

theorem requestedCfg_of_error {x : Trap} (h : configOf s.inCfgw s.inSigma = .ok c)
    (hpar : configParams s.params c = .error x) : requestedCfg s = .error x := by
  simp only [requestedCfg, h, hpar]

theorem requestedCfg_of_ok (h : configOf s.inCfgw s.inSigma = .ok c) (hpar : configParams s.params c = .ok ()) :
    requestedCfg s = .ok c := by
  simp only [requestedCfg, h, hpar]

/-- R247: what PL.CONFIGURE lets in is legal on the build. -/
theorem wf_of_requestedCfg (h : requestedCfg s = .ok c) : c.wf s.params = true := by
  rcases requestedCfg_cases s with ⟨f, -, herr⟩ | ⟨c', t, -, -, herr⟩ | ⟨c', hrec, hpar, hok⟩
  · simp [herr] at h
  · simp [herr] at h
  · obtain rfl : c' = c := Except.ok.inj (hok.symm.trans h)
    rcases configOf_cases s.inCfgw s.inSigma with ⟨f, -, herr⟩ | ⟨-, c'', hok', -, hsigma⟩
    · simp [herr] at hrec
    · obtain rfl : c'' = c' := Except.ok.inj (hok'.symm.trans hrec)
      have hline : ¬ (c''.line = .manchester ∧ s.params.samples % 2 ≠ 0) := by
        intro hbad
        simp [configParams, hbad] at hpar
      simp only [PipeCfg.wf, hsigma, Bool.not_false, Bool.true_and, Bool.or_eq_true, bne_iff_ne, beq_iff_eq]
      tauto

end ConfigurationRecord

/-! ## The pipeline commands -/

section Commands

variable {s : State}

theorem State.busy_of_ne_idle (h : s.pstate ≠ .idle) : s.busy = true := by simp [State.busy, h]

theorem exec_plConfigure_of_busy (h : s.pstate ≠ .idle) :
    exec .plConfigure s = .next (s.raise ⟨.busy, .pstate s.pstate⟩) :=
  congrArg Host.Outcome.next (if_pos (State.busy_of_ne_idle h))

theorem exec_plConfigure_of_error {f : Trap} (hidle : s.pstate = .idle) (hreq : requestedCfg s = .error f) :
    exec .plConfigure s = .next (s.raise f) := by
  have hback : (s.setPState .configuring).setPState .idle = s := State.setPState_self hidle
  have hreq' : requestedCfg (s.setPState .configuring) = .error f := hreq
  simp only [exec, execPlConfigure, s.busy_eq_false_iff.mpr hidle, hreq', hback, Bool.false_eq_true, if_false]

theorem exec_plConfigure_of_ok {c : PipeCfg} (hidle : s.pstate = .idle) (hreq : requestedCfg s = .ok c) :
    exec .plConfigure s = .next (s.setCfg c).done := by
  have hback : ((s.setPState .configuring).setCfg c).setPState .idle = s.setCfg c :=
    State.setPState_self (s := s.setCfg c) hidle
  have hreq' : requestedCfg (s.setPState .configuring) = .ok c := hreq
  simp only [exec, execPlConfigure, s.busy_eq_false_iff.mpr hidle, hreq', hback, Bool.false_eq_true, if_false]

theorem exec_plTransmit_of_busy (h : s.pstate ≠ .idle) :
    exec .plTransmit s = .next (s.raise ⟨.busy, .pstate s.pstate⟩) :=
  congrArg Host.Outcome.next (if_pos (State.busy_of_ne_idle h))

theorem exec_plTransmit_of_unconfigured (hidle : s.pstate = .idle) (hcfg : s.cfgValid = false) :
    exec .plTransmit s = .next (s.raise ⟨.notConfigured, .none⟩) := by
  simp [exec, execPlTransmit, s.busy_eq_false_iff.mpr hidle, hcfg]

theorem exec_plTransmit_of_badChar {i : Nat} (hidle : s.pstate = .idle) (hcfg : s.cfgValid = true)
    (hbad : firstBadChar s.inText = some i) : exec .plTransmit s = .next (s.raise ⟨.invalidChar, .char i⟩) := by
  simp [exec, execPlTransmit, s.busy_eq_false_iff.mpr hidle, hcfg, hbad]

theorem exec_plTransmit_of_charsOk (hidle : s.pstate = .idle) (hcfg : s.cfgValid = true) (ht : charsOk s.inText) :
    exec .plTransmit s = .next (s.accept s.inText) := by
  simp [exec, execPlTransmit, s.busy_eq_false_iff.mpr hidle, hcfg, firstBadChar_eq_none_iff.mpr ht]

/-- PL.CONFIGURE raises a fault, or from Idle writes the configuration that the record asks for. -/
theorem exec_plConfigure_cases (s : State) :
    (∃ f, exec .plConfigure s = .next (s.raise f)) ∨
    ∃ c, s.pstate = .idle ∧ requestedCfg s = .ok c ∧ exec .plConfigure s = .next (s.setCfg c).done := by
  by_cases hidle : s.pstate = .idle
  · cases hreq : requestedCfg s with
    | error f => exact .inl ⟨f, exec_plConfigure_of_error hidle hreq⟩
    | ok c => exact .inr ⟨c, hidle, rfl, exec_plConfigure_of_ok hidle hreq⟩
  · exact .inl ⟨_, exec_plConfigure_of_busy hidle⟩

/-- PL.TRANSMIT raises a fault, or from Idle, configured, accepts a text over 0 to 255. -/
theorem exec_plTransmit_cases (s : State) :
    (∃ f, exec .plTransmit s = .next (s.raise f)) ∨
    (s.pstate = .idle ∧ s.cfgValid = true ∧ charsOk s.inText ∧ exec .plTransmit s = .next (s.accept s.inText)) := by
  by_cases hidle : s.pstate = .idle
  · cases hcfg : s.cfgValid with
    | false => exact .inl ⟨_, exec_plTransmit_of_unconfigured hidle hcfg⟩
    | true =>
      cases hbad : firstBadChar s.inText with
      | some i => exact .inl ⟨_, exec_plTransmit_of_badChar hidle hcfg hbad⟩
      | none =>
        have ht := firstBadChar_eq_none_iff.mp hbad
        exact .inr ⟨hidle, rfl, ht, exec_plTransmit_of_charsOk hidle hcfg ht⟩
  · exact .inl ⟨_, exec_plTransmit_of_busy hidle⟩

/-- R70's four indices. -/
theorem State.signal_of_le (s : State) {n : Nat} (h : n ≤ 3) :
    s.signal n = some ([s.sigBase, s.sigMod, s.sigRx, s.sigDemod].getD n []) :=
  match n, h with
  | 0, _ | 1, _ | 2, _ | 3, _ => rfl

theorem State.signal_of_gt (s : State) {n : Nat} (h : 3 < n) : s.signal n = none :=
  match n, h with
  | _ + 4, _ => rfl

theorem exec_plInspect_of_signal {x : List Sample} (h : s.signal s.inIndex = some x) :
    exec .plInspect s = .next (s.emit (.samples x)) := by
  simp only [exec, execPlInspect, h]

theorem exec_plInspect_of_none (h : s.signal s.inIndex = none) :
    exec .plInspect s = .next (s.raise ⟨.invalidCommand, .index s.inIndex⟩) := by
  simp only [exec, execPlInspect, h]

end Commands

/-! ## What a stage can do -/

/-- The six results are the same in two states (R250). -/
structure KeepsResults (s t : State) : Prop where
  sigBase : t.sigBase = s.sigBase
  sigMod : t.sigMod = s.sigMod
  sigRx : t.sigRx = s.sigRx
  sigDemod : t.sigDemod = s.sigDemod
  rtext : t.rtext = s.rtext
  status : t.status = s.status

/-- Two states differ in IN, OUT, the result register, the flags and the noise input only. -/
structure KeepsRun (s t : State) : Prop where
  cfg : t.cfg = s.cfg
  cfgValid : t.cfgValid = s.cfgValid
  snap : t.snap = s.snap
  params : t.params = s.params
  sigBase : t.sigBase = s.sigBase
  sigMod : t.sigMod = s.sigMod
  sigRx : t.sigRx = s.sigRx
  sigDemod : t.sigDemod = s.sigDemod
  rtext : t.rtext = s.rtext
  status : t.status = s.status
  pstate : t.pstate = s.pstate
  flight : t.flight = s.flight
  event : t.event = s.event
  hostActs : t.hostActs = s.hostActs

/-- A stage of the run `f` that leads from `s` to `t` hands on to the stage of `f'`, with the results unpublished. -/
structure MovesOn (s : State) (f f' : Flight) (t : State) : Prop extends KeepsConfig s t, KeepsResults s t where
  flight : t.flight = some f'
  left : stagesLeft f = stagesLeft f' + 1
  phase : s.pstate = phaseOf (some f) → t.pstate = phaseOf (some f')
  busy : s.pstate ≠ .idle → t.pstate ≠ .idle
  event : t.event = s.event
  hostActs : t.hostActs = s.hostActs
  outputs : flightOk s.snap f → flightOk s.snap f'

/-- `StageOutcome s f t`: a stage of the run `f` may lead from `s` to `t`. -/
inductive StageOutcome (s : State) (f : Flight) : State → Prop
  /-- A fault ends the run (R254). -/
  | aborted (x : Trap) : StageOutcome s f (s.abort x)
  /-- The next stage follows. -/
  | moved {f' : Flight} {t : State} (h : MovesOn s f f' t) : StageOutcome s f t
  /-- Stage R6 publishes the run's stage outputs and completes the run (R250, R252). -/
  | published {s0 s1 s2 s3 : List Sample} {text : Text} {st : Status} (hf : f = .r6 s0 s1 s2 s3 text st) :
    StageOutcome s f ((s.publish s0 s1 s2 s3 text st).complete text st)

section StageLemmas

variable {s u t : State} {f f' : Flight}

theorem keepsRun_of_result (s : State) (r : CmdResult) : KeepsRun s { s with result := r } := by
  constructor <;> rfl

theorem keepsRun_warnIf (s : State) (w : Bool) : KeepsRun s (s.warnIf w) := by constructor <;> rfl

theorem keepsRun_ecFlags (s : State) (e : ErrorControl) (b : BitSeq) : KeepsRun s (s.ecFlags e b) := by
  constructor <;> simp

theorem keepsRun_channelDone (s : State) (a : SigmaArg) (x : List Sample) : KeepsRun s (s.channelDone a x) := by
  constructor <;> simp

theorem KeepsRun.results (h : KeepsRun s t) : KeepsResults s t :=
  ⟨h.sigBase, h.sigMod, h.sigRx, h.sigDemod, h.rtext, h.status⟩

theorem KeepsRun.refl (s : State) : KeepsRun s s := by constructor <;> rfl

/-- A stage of one phase: it touches nothing of the run before the next stage is set. -/
theorem movesOn_goto (h : KeepsRun s u) (hleft : stagesLeft f = stagesLeft f' + 1)
    (hphase : phaseOf (some f) = phaseOf (some f')) (hout : flightOk s.snap f → flightOk s.snap f') :
    MovesOn s f f' (u.goto f') where
  toKeepsConfig := ⟨h.cfg, h.cfgValid, h.snap, h.params⟩
  toKeepsResults := ⟨h.sigBase, h.sigMod, h.sigRx, h.sigDemod, h.rtext, h.status⟩
  flight := rfl
  left := hleft
  phase hs := h.pstate.trans (hs.trans hphase)
  busy hs := h.pstate.trans_ne hs
  event := h.event
  hostActs := h.hostActs
  outputs := hout

/-- A stage that runs a stage function: its fault ends the run, its output goes to the next stage. -/
theorem stageOutcome_stage {α : Type} (r : Staged α) (k : α → Flight) (hleft : ∀ a, stagesLeft f = stagesLeft (k a) + 1)
    (hphase : ∀ a, phaseOf (some f) = phaseOf (some (k a)))
    (hout : ∀ a w, r = .ok (a, w) → flightOk s.snap f → flightOk s.snap (k a)) : StageOutcome s f (s.stage r k) := by
  rcases s.stage_cases r k with ⟨x, -, hstage⟩ | ⟨a, w, hr, hstage⟩
  · exact hstage ▸ .aborted x
  · exact hstage ▸ .moved (movesOn_goto (keepsRun_warnIf s w) (hleft a) (hphase a) (hout a w hr))

/-- R248: with the carrier off the bridge stages copy. -/
theorem copied_stageForward {p : Params} {c : PipeCfg} {x y : List Sample} {w : Bool}
    (h : stageForward p c x = .ok (y, w)) : copied c x y := by
  intro hoff
  simp only [stageForward, hoff, Except.ok.injEq, Prod.mk.injEq] at h
  obtain ⟨hcopy, -⟩ := h
  exact hcopy.symm

theorem copied_stageReverse {p : Params} {c : PipeCfg} {x y : List Sample} {w : Bool}
    (h : stageReverse p c x = .ok (y, w)) : copied c x y := by
  intro hoff
  simp only [stageReverse, hoff, Except.ok.injEq, Prod.mk.injEq] at h
  obtain ⟨hcopy, -⟩ := h
  exact hcopy.symm

theorem statusFits_ecStatus (e : ErrorControl) (b : BitSeq) : statusFits e (ecStatus e b) := by
  cases e with
  | none | hamming => rfl
  | parity | checksum | crc =>
    simp only [statusFits, ecStatus]
    split <;> simp

/-- Stage T6: the channel keeps the length, and PSTATE becomes Receiving (D49). -/
theorem movesOn_channel (s : State) (s0 s1 : List Sample) :
    MovesOn s (.t6 s0 s1) (.r1 s0 s1 (s.channelOut (.real s.snap.sigma) s1))
      (((s.channelDone (.real s.snap.sigma) s1).setPState .receiving).goto
        (.r1 s0 s1 (s.channelOut (.real s.snap.sigma) s1))) where
  toKeepsConfig := by constructor <;> simp
  toKeepsResults := by constructor <;> simp
  flight := rfl
  left := rfl
  phase _ := rfl
  busy _ := by simp
  event := by simp
  hostActs := by simp
  outputs hcopied := ⟨hcopied, s.channelOut_length _ _⟩

theorem runStage_outcome (s : State) (f : Flight) : StageOutcome s f (s.runStage f) := by
  cases f with
  | t1 | t3 | t4 => exact stageOutcome_stage _ _ (fun _ => rfl) (fun _ => rfl) fun _ _ _ _ => trivial
  | t2 => exact .moved (movesOn_goto (.refl s) rfl rfl fun _ => trivial)
  | t5 => exact stageOutcome_stage _ _ (fun _ => rfl) (fun _ => rfl) fun _ _ hr _ => copied_stageForward hr
  | t6 => exact .moved (movesOn_channel s _ _)
  | r1 =>
    exact stageOutcome_stage _ _ (fun _ => rfl) (fun _ => rfl) fun _ _ hr ⟨hfwd, hlen⟩ =>
      ⟨hfwd, hlen, copied_stageReverse hr⟩
  | r2 | r3 => exact stageOutcome_stage _ _ (fun _ => rfl) (fun _ => rfl) fun _ _ _ hout => hout
  | r4 =>
    exact .moved (movesOn_goto (keepsRun_ecFlags s _ _) rfl rfl fun ⟨hfwd, hlen, hrev⟩ =>
      ⟨hfwd, hlen, hrev, statusFits_ecStatus _ _⟩)
  | r5 =>
    exact .moved (movesOn_goto (keepsRun_warnIf s _) rfl rfl fun ⟨hfwd, hlen, hrev, hfits⟩ =>
      ⟨hfwd, hlen, hrev, hfits, charsOk_textDecode _⟩)
  | r6 => exact .published rfl

end StageLemmas

/-! ## What a step can do to the run -/

/-- `RunOutcome s t`: a host action, or the sequencer's stage, may lead from `s` to `t`. -/
inductive RunOutcome (s : State) : State → Prop
  /-- Nothing of the run, the configuration or the results is touched. -/
  | kept {t : State} (h : KeepsRun s t) : RunOutcome s t
  /-- PL.CONFIGURE from Idle is carried out (R247). -/
  | configured (c : PipeCfg) (hidle : s.pstate = .idle) (hreq : requestedCfg s = .ok c) : RunOutcome s (s.setCfg c).done
  /-- PL.TRANSMIT from Idle is accepted (R249). -/
  | accepted (hidle : s.pstate = .idle) (hvalid : s.cfgValid = true) (htext : charsOk s.inText) :
    RunOutcome s (s.accept s.inText)
  /-- The sequencer takes a stage (R244). -/
  | stage {f : Flight} {t : State} (hf : s.flight = some f) (h : StageOutcome s f t) : RunOutcome s t

section RunLemmas

variable {s t : State}

theorem Effect.keepsRun {i : Instr} (h : Effect i s t) (hconfigure : i ≠ .plConfigure) (htransmit : i ≠ .plTransmit) :
    KeepsRun s t := by
  cases h with
  | configured => exact absurd rfl hconfigure
  | accepted => exact absurd rfl htransmit
  | noised => constructor <;> simp
  | raised | emitted | warned | checked | corrected => constructor <;> rfl

theorem exec_runOutcome (i : Instr) (s : State) : ∃ t, exec i s = .next t ∧ RunOutcome s t := by
  by_cases hconfigure : i = .plConfigure
  · subst hconfigure
    rcases exec_plConfigure_cases s with ⟨f, h⟩ | ⟨c, hidle, hreq, h⟩
    · exact ⟨_, h, .kept (keepsRun_of_result s _)⟩
    · exact ⟨_, h, .configured c hidle hreq⟩
  by_cases htransmit : i = .plTransmit
  · subst htransmit
    rcases exec_plTransmit_cases s with ⟨f, h⟩ | ⟨hidle, hvalid, htext, h⟩
    · exact ⟨_, h, .kept (keepsRun_of_result s _)⟩
    · exact ⟨_, h, .accepted hidle hvalid htext⟩
  obtain ⟨t, h, heff⟩ := exec_effect i s
  exact ⟨t, h, .kept (heff.keepsRun hconfigure htransmit)⟩

theorem act_runOutcome (s : State) (a : HostAct) : ∃ t, s.act a = .next t ∧ RunOutcome s t := by
  cases a with
  | present o => exact ⟨_, rfl, .kept (by constructor <;> simp)⟩
  | chain => exact ⟨_, rfl, .kept (by constructor <;> simp)⟩
  | readStatus => exact ⟨_, rfl, .kept (keepsRun_of_result s _)⟩
  | command c =>
    cases hdec : decode c with
    | error e => exact ⟨_, s.command_error hdec, .kept (keepsRun_of_result s _)⟩
    | ok i =>
      obtain ⟨t, h, hrun⟩ := exec_runOutcome i s
      exact ⟨t, (s.command_ok hdec).trans h, hrun⟩
  | pass =>
    refine ⟨s.sequence, rfl, ?_⟩
    cases hf : s.flight with
    | none =>
      have hstay : s.sequence = s := by simp [State.sequence, hf]
      exact hstay.symm ▸ .kept (.refl s)
    | some f =>
      have hstage : s.sequence = s.runStage f := by simp [State.sequence, hf]
      exact hstage.symm ▸ .stage hf (runStage_outcome s f)

/-- What a step can do to the run, told from the state with the host's action taken off the script. -/
theorem step_outcome (h : step s = .next t) : RunOutcome s.consume t := by
  obtain ⟨u, hu, hrun⟩ := act_runOutcome s.consume (s.hostActs.headD .pass)
  obtain rfl : u = t := Host.Outcome.next.inj (hu.symm.trans h)
  exact hrun

end RunLemmas

/-! ## The invariant -/

section Invariant

variable {s t : State}

theorem flight_eq_none_of_idle (h : Inv s) (hidle : s.pstate = .idle) : s.flight = none := by
  have hphase := h.phase.symm.trans hidle
  cases hf : s.flight with
  | none => rfl
  | some f => cases f <;> simp [hf, phaseOf] at hphase

theorem Inv.consume (h : Inv s) : Inv s.consume where
  phase := h.phase
  cfg := h.cfg
  snap := h.snap
  flight := h.flight
  rtext := h.rtext
  channel := h.channel
  idle := fun hevent => absurd rfl hevent
  event := by simp

theorem inv_of_keepsRun (h : Inv s) (hquiet : s.event = none) (hk : KeepsRun s t) : Inv t where
  phase := by rw [hk.pstate, hk.flight]; exact h.phase
  cfg := by rw [hk.cfgValid, hk.cfg, hk.params]; exact h.cfg
  snap := by rw [hk.flight, hk.cfgValid, hk.snap, hk.cfg]; exact h.snap
  flight := by rw [hk.flight, hk.snap]; exact h.flight
  rtext := hk.rtext ▸ h.rtext
  channel := by rw [hk.sigRx, hk.sigMod]; exact h.channel
  idle := by simp [hk.event, hquiet]
  event := by simp [hk.event, hquiet]

/-- A configuration that PL.CONFIGURE lets in is legal, and in Idle there is no run for it to differ from. -/
theorem inv_setCfg {c : PipeCfg} (h : Inv s) (hquiet : s.event = none) (hidle : s.pstate = .idle)
    (hreq : requestedCfg s = .ok c) : Inv (s.setCfg c).done where
  phase := h.phase
  cfg _ := wf_of_requestedCfg hreq
  snap hrun := absurd (flight_eq_none_of_idle h hidle) hrun
  flight := h.flight
  rtext := h.rtext
  channel := h.channel
  idle := by simp [hquiet]
  event := by simp [hquiet]

theorem inv_accept (h : Inv s) (hquiet : s.event = none) (hvalid : s.cfgValid = true) (htext : charsOk s.inText) :
    Inv (s.accept s.inText) where
  phase := rfl
  cfg := h.cfg
  snap _ := ⟨hvalid, rfl⟩
  flight f hf := by
    obtain rfl : Flight.t1 s.inText = f := Option.some.inj hf
    exact htext
  rtext := h.rtext
  channel := h.channel
  idle := by simp [hquiet]
  event := by simp [hquiet]

theorem inv_abort (h : Inv s) (x : Trap) : Inv (s.abort x) where
  phase := rfl
  cfg := h.cfg
  snap hrun := absurd rfl hrun
  flight := by simp
  rtext := h.rtext
  channel := h.channel
  idle _ := rfl
  event e he := by
    obtain rfl : Completion.failed x = e := Option.some.inj he
    trivial

theorem inv_of_movesOn {f f' : Flight} (h : Inv s) (hquiet : s.event = none) (hf : s.flight = some f)
    (hm : MovesOn s f f' t) : Inv t where
  phase := by rw [hm.flight]; exact hm.phase (hf ▸ h.phase)
  cfg := by rw [hm.cfgValid, hm.cfg, hm.params]; exact h.cfg
  snap _ := by rw [hm.cfgValid, hm.snap, hm.cfg]; exact h.snap (by simp [hf])
  flight g hg := by
    obtain rfl : f' = g := Option.some.inj (hm.flight.symm.trans hg)
    rw [hm.snap]
    exact hm.outputs (h.flight f hf)
  rtext := hm.rtext ▸ h.rtext
  channel := by rw [hm.sigRx, hm.sigMod]; exact h.channel
  idle := by simp [hm.event, hquiet]
  event := by simp [hm.event, hquiet]

/-- What R6 publishes satisfies what the run's stage outputs did. -/
theorem inv_publish {s0 s1 s2 s3 : List Sample} {text : Text} {st : Status} (h : Inv s)
    (hf : s.flight = some (.r6 s0 s1 s2 s3 text st)) : Inv ((s.publish s0 s1 s2 s3 text st).complete text st) := by
  obtain ⟨hfwd, hlen, hrev, hfits, htext⟩ := h.flight _ hf
  exact
    { phase := rfl
      cfg := h.cfg
      snap := fun hrun => absurd rfl hrun
      flight := by simp
      rtext := htext
      channel := hlen
      idle := fun _ => rfl
      event := fun e he => by
        obtain rfl : Completion.done text st = e := Option.some.inj he
        exact ⟨rfl, rfl, hfits, hfwd, hrev⟩ }

theorem inv_of_stageOutcome {f : Flight} (h : Inv s) (hquiet : s.event = none) (hf : s.flight = some f)
    (hstage : StageOutcome s f t) : Inv t := by
  cases hstage with
  | aborted x => exact inv_abort h x
  | moved hm => exact inv_of_movesOn h hquiet hf hm
  | published heq => exact inv_publish h (heq ▸ hf)

end Invariant

/-! ## How a run ends -/

section Completion

variable {s t : State} {f : Flight}

/-- A run is over and its completion event is raised (R252, R254). -/
structure Completed (t : State) : Prop where
  event : t.event ≠ none
  flight : t.flight = none
  pstate : t.pstate = .idle

theorem stagesLeft_pos (f : Flight) : 1 ≤ stagesLeft f := by cases f <;> simp [stagesLeft]

/-- A stage completes the run or moves it on, with one stage less to take. -/
theorem StageOutcome.progress (h : StageOutcome s f t) (hbusy : s.pstate ≠ .idle) :
    Completed t ∨
      (t.event = s.event ∧ t.pstate ≠ .idle ∧ t.hostActs = s.hostActs ∧
        ∃ f', t.flight = some f' ∧ stagesLeft f = stagesLeft f' + 1) := by
  cases h with
  | aborted x => exact .inl ⟨by simp, rfl, rfl⟩
  | published hf => exact .inl ⟨by simp, rfl, rfl⟩
  | moved hm => exact .inr ⟨hm.event, hm.busy hbusy, hm.hostActs, _, hm.flight, hm.left⟩

/-- During a run the host changes nothing of it: PL.CONFIGURE and PL.TRANSMIT need Idle (R246). -/
theorem RunOutcome.progress (h : RunOutcome s t) (hf : s.flight = some f) (hbusy : s.pstate ≠ .idle) :
    Completed t ∨
      (t.event = s.event ∧ t.pstate ≠ .idle ∧ t.hostActs = s.hostActs ∧
        ∃ f', t.flight = some f' ∧ stagesLeft f' ≤ stagesLeft f) := by
  cases h with
  | kept hk => exact .inr ⟨hk.event, hk.pstate.trans_ne hbusy, hk.hostActs, f, hk.flight.trans hf, le_rfl⟩
  | configured c hidle => exact absurd hidle hbusy
  | accepted hidle => exact absurd hidle hbusy
  | stage hf' hstage =>
    obtain rfl := Option.some.inj (hf.symm.trans hf')
    rcases hstage.progress hbusy with hdone | ⟨hevent, hbusy', hacts, f', hflight, hleft⟩
    · exact .inl hdone
    · exact .inr ⟨hevent, hbusy', hacts, f', hflight, by omega⟩

/-- Each step of a run completes it, or takes an action off the script or a stage off the run. -/
theorem step_progress (hf : s.flight = some f) (hbusy : s.pstate ≠ .idle) :
    ∃ t, step s = .next t ∧
      (Completed t ∨
        (t.event = none ∧ t.pstate ≠ .idle ∧
          ∃ f', t.flight = some f' ∧ t.hostActs.length + stagesLeft f' < s.hostActs.length + stagesLeft f)) := by
  cases hacts : s.hostActs with
  | nil =>
    refine ⟨_, step_of_flight (by simp [hacts]) hf, ?_⟩
    rcases (runStage_outcome s.consume f).progress hbusy with hdone | ⟨hevent, hbusy', hacts', f', hflight, hleft⟩
    · exact .inl hdone
    · refine .inr ⟨hevent, hbusy', f', hflight, ?_⟩
      simp only [hacts', State.consume_hostActs, hacts, List.tail_nil, List.length_nil]
      omega
  | cons a acts =>
    obtain ⟨t, hact, hrun⟩ := act_runOutcome s.consume (s.hostActs.headD .pass)
    refine ⟨t, hact, ?_⟩
    rcases hrun.progress hf hbusy with hdone | ⟨hevent, hbusy', hacts', f', hflight, hleft⟩
    · exact .inl hdone
    · refine .inr ⟨hevent, hbusy', f', hflight, ?_⟩
      simp only [hacts', State.consume_hostActs, hacts, List.tail_cons, List.length_cons]
      omega

theorem steps_succ (h : step s = .next t) (k : Nat) : steps (k + 1) s = steps k t := by
  rw [steps, h]

/-- R252: within as many steps as there are actions and stages left, a run completes; until then it stays in flight and
raises no event. -/
theorem run_completes {n : Nat} (hf : s.flight = some f) (hbusy : s.pstate ≠ .idle)
    (hn : s.hostActs.length + stagesLeft f ≤ n) :
    ∃ k t, 1 ≤ k ∧ k ≤ n ∧ steps k s = some t ∧ Completed t ∧
      ∀ j, 1 ≤ j → j < k → ∃ u, steps j s = some u ∧ u.event = none ∧ u.flight ≠ none := by
  induction n generalizing s f with
  | zero =>
    have := stagesLeft_pos f
    omega
  | succ n ih =>
    obtain ⟨t, hstep, hdone | ⟨hevent, hbusy', f', hflight, hless⟩⟩ := step_progress hf hbusy
    · exact ⟨1, t, le_rfl, by omega, steps_succ hstep 0, hdone, fun j h1 hj => by omega⟩
    · obtain ⟨k, u, -, hkn, hsteps, hdone, hbefore⟩ := ih hflight hbusy' (by omega)
      refine ⟨k + 1, u, by omega, by omega, (steps_succ hstep k).trans hsteps, hdone, fun j h1 hj => ?_⟩
      obtain ⟨j, rfl⟩ := Nat.exists_eq_add_of_le' h1
      rw [steps_succ hstep]
      cases j with
      | zero => exact ⟨t, rfl, hevent, by simp [hflight]⟩
      | succ j => exact hbefore (j + 1) (by omega) (by omega)

/-- R287: outside a run a step raises no event. -/
theorem event_eq_none_of_step (hf : s.flight = none) (h : step s = .next t) : t.event = none := by
  cases step_outcome h with
  | kept hk => exact hk.event
  | configured | accepted => rfl
  | stage hf' => exact absurd (hf.symm.trans hf') (by simp)

end Completion

/-! ## The received code word -/

section ReceivedWord

variable {b c : BitSeq} {k : Nat}

/-- Zeros that a frame adds to its payload: fewer than 8, and none after whole bytes (R112, R316). -/
def framePad (b : BitSeq) (k : Nat) : Prop := k < 8 ∧ (b.length % 8 = 0 → k = 0)

theorem framePad_zero (b : BitSeq) : framePad b 0 := ⟨by omega, fun _ => rfl⟩

theorem framePad_bytes (b : BitSeq) : framePad b (8 * nbytes b - b.length) := by
  rw [framePad, nbytes_eq]
  omega

theorem append_zeros_zero (b : BitSeq) : b ++ zeros 0 = b := List.append_nil b

/-- R258: each framing hands back its payload, byte stuffing with zeros up to a whole byte. -/
theorem frameDecode_frameEncode {p : Params} {f : Framing} (hne : p.flag ≠ p.esc)
    (hlen : f = .characterCount → b.length ≤ 2032) :
    ∃ frame k, frameEncode p f b = .ok (frame, false) ∧ frameDecode p f frame = .ok (b ++ zeros k, false) ∧
      framePad b k := by
  cases f with
  | characterCount =>
    have hcount : nbytes b + 1 ≤ 255 := by
      have := hlen rfl
      rw [nbytes_eq]
      omega
    refine ⟨_, 0, ccEncode_of_le hcount, ?_, framePad_zero b⟩
    rw [append_zeros_zero, frameDecode_ccFrame p hcount]
  | byteStuffing => exact ⟨_, _, bsEncode_of_ne hne b, frameDecode_bsFrame hne b, framePad_bytes b⟩
  | bitStuffing =>
    refine ⟨_, 0, rfl, ?_, framePad_zero b⟩
    rw [append_zeros_zero, frameDecode_bitEncode]

theorem parityBit_zeros (k : Nat) : parityBit (zeros k) = false := by
  simp [parityBit, popcount, zeros, List.countP_replicate]

theorem parityPass_padded (b : BitSeq) (k : Nat) : parityPass (parityEncode b ++ zeros k) = true := by
  rw [parityPass_eq_not, parityBit_append, parityBit_parityEncode, parityBit_zeros]
  rfl

/-- The last bit of a padded parity word is taken off; what is left begins with the payload. -/
theorem stripLast_one_padded (b : BitSeq) (k : Nat) :
    stripLast 1 (parityEncode b ++ zeros k) = b ++ ([parityBit b] ++ zeros k).take k := by
  have hcount : (parityEncode b ++ zeros k).length - 1 = b.length + k := by
    simp [parityEncode, zeros_length]
  rw [stripLast_eq_take, hcount, parityEncode, List.append_assoc, List.take_length_add_append]

theorem xorOver_append (i : Nat) (c e : BitSeq) (j : Nat) :
    xorOver (2 ^ i) j (c ++ e) = (xorOver (2 ^ i) j c ^^ xorOver (2 ^ i) (j + c.length) e) := by
  induction c generalizing j with
  | nil => simp [xorOver]
  | cons x c ih =>
    rw [List.cons_append, xorOver_cons, xorOver_cons, ih, Bool.xor_assoc, List.length_cons, Nat.add_right_comm,
      Nat.add_assoc]

theorem xorOver_zeros (i j k : Nat) : xorOver (2 ^ i) j (zeros k) = false := by
  induction k generalizing j with
  | zero => rfl
  | succ k ih =>
    have hcons : zeros (k + 1) = false :: zeros k := rfl
    rw [hcons, xorOver_cons, ih, Bool.and_false, Bool.xor_false]

/-- A word with fewer than p positions has none in C(p) (R152). -/
theorem xorOver_of_length_lt {i : Nat} (h : c.length < 2 ^ i) : xorOver (2 ^ i) 1 c = false := by
  have hall : ∀ (c : BitSeq) (j : Nat), j + c.length ≤ 2 ^ i → xorOver (2 ^ i) j c = false := by
    intro c
    induction c with
    | nil => exact fun _ _ => rfl
    | cons x c ih =>
      intro j hj
      rw [List.length_cons] at hj
      rw [xorOver_cons, Nat.testBit_lt_two_pow (by omega), ih (j + 1) (by omega)]
      rfl
  exact hall c 1 (by omega)

/-- Padding a code word with zeros leaves its syndrome at 0. -/
theorem hamSyndrome_padded (d : BitSeq) (k : Nat) : hamSyndrome (hamEncode d ++ zeros k) = 0 := by
  refine hamSyndrome_eq (Nat.zero_le _) fun i _ => ?_
  have hword : xorOver (2 ^ i) 1 (hamEncode d) = false := by
    rcases Nat.lt_or_ge (hamEncode d).length (2 ^ i) with h | h
    · exact xorOver_of_length_lt h
    · exact xorOver_hamEncode h
  rw [xorOver_append, hword, xorOver_zeros, Nat.zero_testBit]
  rfl

theorem hamData_append (c e : BitSeq) (j : Nat) : hamData j (c ++ e) = hamData j c ++ hamData (j + c.length) e := by
  induction c generalizing j with
  | nil => rfl
  | cons x c ih =>
    have hplace : j + 1 + c.length = j + (x :: c).length := by rw [List.length_cons]; omega
    rw [List.cons_append, hamData, hamData, ih, hplace]
    split <;> rfl

theorem hamData_length_le (c : BitSeq) (j : Nat) : (hamData j c).length ≤ c.length := by
  induction c generalizing j with
  | nil => exact le_rfl
  | cons x c ih =>
    have := ih (j + 1)
    rw [hamData]
    split <;> simp <;> omega

/-- The decoder finds no error in a padded code word, and the padding's data positions follow the payload. -/
theorem hamDecode_padded (d : BitSeq) (k : Nat) :
    ∃ x : BitSeq, x.length ≤ k ∧ hamDecode (hamEncode d ++ zeros k) = d ++ x := by
  refine ⟨_, (hamData_length_le (zeros k) (1 + (hamEncode d).length)).trans (zeros_length k).le, ?_⟩
  have hclean : hamCorrects (hamEncode d ++ zeros k) = false := by
    rw [hamCorrects, hamSyndrome_padded]
    rfl
  rw [hamDecode, hamRepair, hclean, if_neg Bool.false_ne_true, hamData_append, hamData_hamEncode]

/-- R251, R316: a code word of whole payload bytes, padded as a frame pads it, passes its scheme's check, and the
payload handed on is the one encoded and less than a byte more. -/
theorem ecReceive_ecEncode (e : ErrorControl) (hb : b.length % 8 = 0) (hk : framePad (ecEncode e b) k) :
    ecStatus e (ecEncode e b ++ zeros k) = passing e ∧
      ∃ x : BitSeq, x.length < 8 ∧ ecPayload e (ecEncode e b ++ zeros k) = b ++ x := by
  obtain ⟨hlt, haligned⟩ := hk
  cases e with
  | none =>
    obtain rfl := haligned hb
    exact ⟨rfl, [], by decide, rfl⟩
  | parity =>
    refine ⟨?_, _, ?_, stripLast_one_padded b k⟩
    · rw [ecStatus, ecEncode, parityPass_padded, if_pos rfl]
      rfl
    · rw [List.length_take]
      omega
  | checksum =>
    obtain rfl := haligned (by
      rw [ecEncode, checksumEncode_eq, List.length_append, checksumField_length]
      omega)
    rw [append_zeros_zero]
    refine ⟨?_, [], by decide, ?_⟩
    · rw [ecStatus, ecEncode, checksumPass_checksumEncode, if_pos rfl]
      rfl
    · rw [List.append_nil]
      exact stripLast_append (checksumField_length b)
  | crc =>
    obtain rfl := haligned (by
      rw [ecEncode, crcEncode_length]
      omega)
    rw [append_zeros_zero]
    refine ⟨?_, [], by decide, ?_⟩
    · rw [ecStatus, ecEncode, crcPass_crcEncode, if_pos rfl]
      rfl
    · rw [List.append_nil]
      exact stripLast_append (crc32_length b)
  | hamming =>
    obtain ⟨x, hx, hdec⟩ := hamDecode_padded b k
    exact ⟨rfl, x, hx.trans_lt hlt, hdec⟩

end ReceivedWord

/-! ## The noiseless run -/

section NoiselessRun

variable {p : Params} {c : PipeCfg} {f f' : Flight} {s : State}

/-- A run of snapshot `c` on build `p` stands before the stage of `f`, and the host does nothing. -/
structure RunsAt (p : Params) (c : PipeCfg) (f : Flight) (s : State) : Prop where
  script : s.hostActs = []
  params : s.params = p
  snap : s.snap = c
  flight : s.flight = some f

/-- Under an empty script each step takes one stage. -/
theorem RunsAt.step_eq (h : RunsAt p c f s) : step s = .next (s.consume.runStage f) :=
  step_of_flight (by simp [h.script]) h.flight

theorem StageOutcome.movesOn {t : State} (h : StageOutcome s f t) (hnext : t.flight = some f') : MovesOn s f f' t := by
  cases h with
  | aborted => cases hnext
  | published => cases hnext
  | moved hm =>
    obtain rfl := Option.some.inj (hm.flight.symm.trans hnext)
    exact hm

/-- What holds `k` steps after the next stage holds `k + 1` steps after this one. -/
theorem RunsAt.steps_of_stage {k : Nat} {P : State → Prop} (h : RunsAt p c f s)
    (hnext : ∀ u : State, u.params = p → u.snap = c → (u.runStage f).flight = some f')
    (hrest : ∀ t, RunsAt p c f' t → ∃ u, steps k t = some u ∧ P u) : ∃ u, steps (k + 1) s = some u ∧ P u := by
  have hm := (runStage_outcome s.consume f).movesOn (hnext s.consume h.params h.snap)
  rw [steps_succ h.step_eq]
  refine hrest _ ⟨?_, hm.params.trans h.params, hm.snap.trans h.snap, hm.flight⟩
  rw [hm.hostActs, State.consume_hostActs, h.script, List.tail_nil]

theorem flight_stage_of_ok {α : Type} {r : Staged α} {a : α} {w : Bool} (h : r = .ok (a, w)) (s : State)
    (k : α → Flight) : (s.stage r k).flight = some (k a) := by
  subst h
  rfl

theorem channelOut_of_sigma_zero {x : Sample} (h : x.toReal = 0) (s : State) (y : List Sample) :
    s.channelOut (.real x) y = y :=
  (s.channel_of_pass (passThrough_eq_true_iff.mpr ⟨x, rfl, h.le⟩) y).1

/-- What a completed run has published, and its event carries. -/
structure Published (t : Text) (st : Status) (s : State) : Prop where
  flight : s.flight = none
  pstate : s.pstate = .idle
  rtext : s.rtext = t
  status : s.status = some st
  event : s.event = some (.done t st)

theorem RunsAt.published {s0 s1 s2 s3 : List Sample} {t : Text} {st : Status}
    (h : RunsAt p c (.r6 s0 s1 s2 s3 t st) s) : ∃ u, steps 1 s = some u ∧ Published t st u :=
  ⟨_, steps_succ h.step_eq 0, ⟨rfl, rfl, rfl, rfl, rfl⟩⟩

/-- R258: without noise and carrier, the receiving stages undo the transmitting ones: the line code and the carrier's
copies exactly, the framing up to its padding, which error control and text conversion pass over. -/
theorem RunsAt.noiseless {t : Text} (h : RunsAt p c (.t1 t) s) (hV : 0 < p.lineAmp.toReal) (hS : 1 ≤ p.samples)
    (hline : lineReady p c.line) (hne : p.flag ≠ p.esc) (hsigma : c.sigma.toReal = 0) (hoff : carrierOn c = none)
    (ht : charsOk t) (hlen : c.framing = .characterCount → (ecEncode c.ec (textBits t)).length ≤ 2032) :
    ∃ u, steps 12 s = some u ∧ Published t (passing c.ec) u := by
  obtain ⟨frame, k, hfrm, hunfrm, hpad⟩ := frameDecode_frameEncode hne hlen
  obtain ⟨x, henc, hdec⟩ := lineDecode_lineEncode hV hS hline frame
  obtain ⟨hstatus, y, hy, hpay⟩ := ecReceive_ecEncode c.ec (by rw [textBits_length]; omega) hpad
  have hfwd : stageForward p c x = .ok (x, false) := by simp only [stageForward, hoff]
  have hrev : stageReverse p c x = .ok (x, false) := by simp only [stageReverse, hoff]
  refine h.steps_of_stage (fun u _ _ => flight_stage_of_ok (textEncode_of_charsOk ht) u _) fun _ h => ?_
  refine h.steps_of_stage (f' := .t3 (ecEncode c.ec (textBits t))) (fun u _ hc => by rw [← hc]; rfl) fun _ h => ?_
  refine h.steps_of_stage (fun u hp hc => flight_stage_of_ok (by rw [hp, hc, hfrm]) u _) fun _ h => ?_
  refine h.steps_of_stage (fun u hp hc => flight_stage_of_ok (by rw [hp, hc, henc]) u _) fun _ h => ?_
  refine h.steps_of_stage (fun u hp hc => flight_stage_of_ok (by rw [hp, hc, hfwd]) u _) fun _ h => ?_
  refine h.steps_of_stage (f' := .r1 x x x) (fun u _ hc => ?_) fun _ h => ?_
  · rw [← hc] at hsigma
    exact congrArg (fun y => some (Flight.r1 x x y)) (channelOut_of_sigma_zero hsigma u x)
  refine h.steps_of_stage (fun u hp hc => flight_stage_of_ok (by rw [hp, hc, hrev]) u _) fun _ h => ?_
  refine h.steps_of_stage (fun u hp hc => flight_stage_of_ok (by rw [hp, hc, hdec]) u _) fun _ h => ?_
  refine h.steps_of_stage (fun u hp hc => flight_stage_of_ok (by rw [hp, hc, hunfrm]) u _) fun _ h => ?_
  refine h.steps_of_stage (f' := .r5 x x x x (textBits t ++ y) (passing c.ec)) (fun u _ hc => ?_) fun _ h => ?_
  · rw [← hpay, ← hstatus, ← hc]
    rfl
  refine h.steps_of_stage (f' := .r6 x x x x t (passing c.ec)) (fun u _ _ => ?_) fun _ h => h.published
  exact congrArg (fun t => some (Flight.r6 x x x x t (passing c.ec))) (textDecode_textBits_append ht hy)

end NoiselessRun

/-! ## The obligations -/

/-- Settles O55: each outcome of a step keeps the invariant, whose event clauses are void once the edge is over. -/
theorem everyStepKeepsTheInvariant : Obligations.EveryStepKeepsTheInvariant := by
  unfold Obligations.EveryStepKeepsTheInvariant
  intro s t h hstep
  have hc : Inv s.consume := h.consume
  cases step_outcome hstep with
  | kept hk => exact inv_of_keepsRun hc rfl hk
  | configured c hidle hreq => exact inv_setCfg hc rfl hidle hreq
  | accepted hidle hvalid htext => exact inv_accept hc rfl hvalid htext
  | stage hf hstage => exact inv_of_stageOutcome hc rfl hf hstage

/-- Settles O46: only publication writes the results, and it writes all six. -/
theorem resultsPublishedAtomically : Obligations.ResultsPublishedAtomically := by
  unfold Obligations.ResultsPublishedAtomically
  intro s t hstep
  have same (h : KeepsResults s.consume t) :
      t.sigBase = s.sigBase ∧ t.sigMod = s.sigMod ∧ t.sigRx = s.sigRx ∧ t.sigDemod = s.sigDemod ∧
        t.rtext = s.rtext ∧ t.status = s.status :=
    ⟨h.sigBase, h.sigMod, h.sigRx, h.sigDemod, h.rtext, h.status⟩
  cases step_outcome hstep with
  | kept hk => exact .inl (same hk.results)
  | configured | accepted => exact .inl ⟨rfl, rfl, rfl, rfl, rfl, rfl⟩
  | stage hf hstage =>
    cases hstage with
    | aborted => exact .inl ⟨rfl, rfl, rfl, rfl, rfl, rfl⟩
    | moved hm => exact .inl (same hm.toKeepsResults)
    | published heq =>
      exact .inr ⟨_, _, _, _, _, _, heq ▸ hf, rfl, rfl, rfl, rfl, rfl, rfl, rfl, rfl, rfl⟩

/-- Settles O45: a run has finitely many actions and stages before it, and the event is an edge. -/
theorem everyRunCompletesOnce : Obligations.EveryRunCompletesOnce := by
  unfold Obligations.EveryRunCompletesOnce
  constructor
  · intro s t hexec hdone
    rcases exec_plTransmit_cases s with ⟨f, hraised⟩ | ⟨-, -, -, haccepted⟩
    · obtain rfl := Host.Outcome.next.inj (hraised.symm.trans hexec)
      cases hdone
    · obtain rfl := Host.Outcome.next.inj (haccepted.symm.trans hexec)
      exact ⟨rfl, by simp⟩
  · intro s f hf hbusy
    obtain ⟨k, t, h1, hk, hsteps, hdone, hbefore⟩ := run_completes hf hbusy le_rfl
    exact ⟨k, t, h1, hk, hsteps, hdone.event, hdone.flight, hdone.pstate, hbefore,
      fun u hstep => event_eq_none_of_step hdone.flight hstep⟩

/-- Settles O56: the acceptance puts the run before stage T1, and the noiseless run publishes the text. -/
theorem noiselessPipelineReturnsTheText : Obligations.NoiselessPipelineReturnsTheText := by
  unfold Obligations.NoiselessPipelineReturnsTheText
  intro s hV hS hline hne hidle hvalid hsigma hoff ht hlen
  have hstart : RunsAt s.params s.cfg (.t1 s.inText) { s.accept s.inText with hostActs := [] } := ⟨rfl, rfl, rfl, rfl⟩
  obtain ⟨u, hsteps, hu⟩ := hstart.noiseless hV hS hline hne hsigma (carrierOn_of_disabled hoff) ht hlen
  exact ⟨s.accept s.inText, u, exec_plTransmit_of_charsOk hidle hvalid ht, rfl, hsteps, hu.flight, hu.pstate, hu.rtext,
    hu.status, hu.event⟩

/-- Settles O39: each character's byte is read back. -/
theorem textRoundTrip : Obligations.TextRoundTrip := by
  unfold Obligations.TextRoundTrip
  intro s ht
  refine ⟨s.emit (.bits (textBits s.inText)), _, ?_, rfl, ?_, ?_⟩
  · rw [exec_txtEnc, textEncode_of_charsOk ht, ← State.emit_eq_finishAs]
  · have hdec := textDecode_textBits_append (x := []) ht (by decide)
    rw [List.append_nil] at hdec
    exact congrArg Buf.text hdec
  · have hwhole : partialUnit 8 (textBits s.inText).length = false := by rw [textBits_length, partialUnit_mul]
    exact (congrArg (s.warn || ·) hwhole).trans (Bool.or_false _)

/-- Settles O40: the record's first bad field, the build's check of Manchester, or the packed configuration. -/
theorem configureResult : Obligations.ConfigureResult := by
  unfold Obligations.ConfigureResult
  intro s
  refine ⟨exec_plConfigure_of_busy, fun f hidle hbad => ?_, fun hidle hgood hman hodd => ?_,
    fun c hidle hword hsigma hpos hready => ?_⟩
  · rcases configOf_cases s.inCfgw s.inSigma with ⟨f', hbad', herr⟩ | ⟨hnone, -⟩
    · obtain rfl := Option.some.inj (hbad'.symm.trans hbad)
      exact exec_plConfigure_of_error hidle (requestedCfg_of_badField herr)
    · simp [hnone] at hbad
  · rcases configOf_cases s.inCfgw s.inSigma with ⟨f', hbad', -⟩ | ⟨-, c, hok, hline, -⟩
    · simp [hbad'] at hgood
    · have hc := line_eq_manchester (hline.trans hman)
      exact exec_plConfigure_of_error hidle (requestedCfg_of_error hok (configParams_of_odd hc hodd))
  · have hok : configOf s.inCfgw s.inSigma = .ok c := by
      rw [hword, hsigma, configOf_packed ((Sample.isNeg_eq_false_iff _).mpr hpos)]
    exact exec_plConfigure_of_ok hidle (requestedCfg_of_ok hok (configParams_of_ready hready))

/-- Settles O38: the first wide character is refused, and both conversions go byte by byte. -/
theorem textConversionResults : Obligations.TextConversionResults := by
  unfold Obligations.TextConversionResults
  intro s
  refine ⟨fun ht => ?_, fun i hwide hfirst => ?_, ?_⟩
  · rw [exec_txtEnc, textEncode_of_charsOk ht, State.finishAs_silent, textBits]
  · rw [exec_txtEnc, textEncode_of_firstBadChar (firstBadChar_of_first hwide hfirst)]
    rfl
  · rw [exec_txtDec, State.finishAs_ok, textDecode_eq, partialUnit_eq_decide]

/-- Settles O41: PL.TRANSMIT's checks in R283's order. -/
theorem transmitAcceptance : Obligations.TransmitAcceptance := by
  unfold Obligations.TransmitAcceptance
  intro s
  exact ⟨exec_plTransmit_of_busy, exec_plTransmit_of_unconfigured,
    fun i hidle hvalid hwide hfirst => exec_plTransmit_of_badChar hidle hvalid (firstBadChar_of_first hwide hfirst),
    exec_plTransmit_of_charsOk⟩

/-- Settles O42: the four indices, one by one, and those above. -/
theorem inspectResult : Obligations.InspectResult := by
  unfold Obligations.InspectResult
  intro s
  refine ⟨fun hle => exec_plInspect_of_signal (s.signal_of_le hle), fun hgt => exec_plInspect_of_none ?_⟩
  exact s.signal_of_gt hgt

/-- Settles O44: the count does not fit its byte, and the fault of a stage ends the run. -/
theorem lengthOverflowEndsTheRun : Obligations.LengthOverflowEndsTheRun := by
  unfold Obligations.LengthOverflowEndsTheRun
  intro s b hpass hf hcc hlen
  rw [← nbytes_eq] at hlen ⊢
  have hfault : frameEncode s.params s.snap.framing b = .error ⟨.lengthOverflow, .count (nbytes b + 1)⟩ := by
    rw [hcc, frameEncode, ccEncode_of_lt (by omega)]
  have hstep : step s = .next (s.consume.stage (frameEncode s.params s.snap.framing b) .t4) := step_of_flight hpass hf
  rw [hstep, hfault]
  rfl

end Sys2Proof.Machine
end

section
/-! PROOFS. The family 60_exceptions.md. A host action in a run keeps the run, for the two operations that would write it
are refused as Busy (O48). The faults of a build are those of its checks: each stage function hands on the fault of
its check, the complex path that of the stage that runs first (O31), and the check of CFG_VALID precedes them (O36). -/

namespace Sys2Proof.Machine

open Sys2Proof.Pseudocode

/-! ## The host in a run -/

section BusyHost

variable {s : State}

theorem exec_keepsRun_of_busy (i : Instr) (hbusy : s.pstate ≠ .idle) : ∃ t, exec i s = .next t ∧ KeepsRun s t := by
  by_cases hconfigure : i = .plConfigure
  · exact ⟨_, hconfigure ▸ exec_plConfigure_of_busy hbusy, keepsRun_of_result s _⟩
  by_cases htransmit : i = .plTransmit
  · exact ⟨_, htransmit ▸ exec_plTransmit_of_busy hbusy, keepsRun_of_result s _⟩
  obtain ⟨t, hexec, heff⟩ := exec_effect i s
  exact ⟨t, hexec, heff.keepsRun hconfigure htransmit⟩

/-- R246, R312: while a run is in flight, only the sequencer touches it. -/
theorem act_keepsRun_of_busy {a : HostAct} (hact : a ≠ .pass) (hbusy : s.pstate ≠ .idle) :
    ∃ t, s.act a = .next t ∧ KeepsRun s t := by
  cases a with
  | pass => exact absurd rfl hact
  | present o => exact ⟨_, rfl, by constructor <;> simp⟩
  | chain => exact ⟨_, rfl, by constructor <;> simp⟩
  | readStatus => exact ⟨_, rfl, keepsRun_of_result s _⟩
  | command c =>
    cases hdec : decode c with
    | error e => exact ⟨_, s.command_error hdec, keepsRun_of_result s _⟩
    | ok i =>
      obtain ⟨t, hexec, hkeep⟩ := exec_keepsRun_of_busy i hbusy
      exact ⟨t, (s.command_ok hdec).trans hexec, hkeep⟩

/-- R275: PL.CONFIGURE and PL.TRANSMIT are refused as Busy. -/
theorem act_pipelineCommand_of_busy {a : HostAct} (hcmd : a = .command 0xC4#8 ∨ a = .command 0xC8#8)
    (hbusy : s.pstate ≠ .idle) : s.act a = .next (s.raise ⟨.busy, .pstate s.pstate⟩) := by
  rcases hcmd with rfl | rfl
  · exact (s.command_ok (commandDecodeRoundTrip .plConfigure)).trans (exec_plConfigure_of_busy hbusy)
  · exact (s.command_ok (commandDecodeRoundTrip .plTransmit)).trans (exec_plTransmit_of_busy hbusy)

end BusyHost

/-! ## The checks of the build -/

section BuildChecks

variable {p : Params} {sch : Scheme} {t : Trap}

theorem carrierParams_of_zero (h : p.carrierFreq = 0) :
    carrierParams p = .error ⟨.invalidParameter, .param .carrierFreq⟩ := if_pos h

theorem carrierParams_of_le (hf : p.carrierFreq ≠ 0) (hS : p.samples ≤ 4 * p.carrierFreq) :
    carrierParams p = .error ⟨.invalidParameter, .param .samples⟩ := by
  rw [carrierParams, if_neg hf, if_pos hS]

theorem schemeParams_of_hasTable (h : hasTable sch) : schemeParams p sch = tableParams p sch := by
  cases sch with
  | ask | fsk => exact h.elim
  | bpsk | qpsk | psk8 | qam16 => rfl

/-- Every scheme's check begins with the carrier's. -/
theorem schemeParams_of_carrierFault (h : carrierParams p = .error t) (sch : Scheme) :
    schemeParams p sch = .error t := by
  have htable : tableParams p sch = .error t := by rw [tableParams, h]
  cases sch with
  | ask | fsk => exact h
  | bpsk | qpsk | psk8 | qam16 => exact htable

theorem schemeParams_of_badTable (htable : hasTable sch) (hf : p.carrierFreq ≠ 0)
    (hS : 4 * p.carrierFreq < p.samples) (hlen : (symTab p sch).length ≠ 2 ^ symbolWidth sch) :
    schemeParams p sch = .error ⟨.invalidParameter, .param (.symtab sch)⟩ := by
  rw [schemeParams_of_hasTable htable, tableParams, carrierParams_of_lt (Nat.pos_of_ne_zero hf) hS]
  exact if_neg hlen

end BuildChecks

/-! ## The fault of a stage function is the fault of its check -/

section StageFaults

variable {p : Params} {c : LineCode} {sch : Scheme} {t : Trap}

theorem bsEncode_of_eq (h : p.flag = p.esc) (b : BitSeq) :
    bsEncode p b = .error ⟨.invalidParameter, .param .esc⟩ := by
  simp [bsEncode, byteStuffingParams, h]

theorem bsDecode_of_eq (h : p.flag = p.esc) (f : BitSeq) :
    bsDecode p f = .error ⟨.invalidParameter, .param .esc⟩ := by
  simp [bsDecode, byteStuffingParams, h]

theorem carrierMod_of_error (h : schemeParams p sch = .error t) (b : BitSeq) : carrierMod p sch b = .error t := by
  rw [carrierMod, h]

theorem carrierDem_of_error (h : schemeParams p sch = .error t) (x : List Sample) : carrierDem p sch x = .error t := by
  rw [carrierDem, h]

theorem linearPath_of_error (h : carrierParams p = .error t) (x : List Sample) : linearPath p x = .error t := by
  rw [linearPath, h]

theorem complexForward_of_lineFault {v : List Sample} (h : lineDecode p c v = .error t) :
    complexForward p c sch v = .error t := by
  rw [complexForward, h]

theorem complexForward_of_schemeFault (hline : lineReady p c) (h : schemeParams p sch = .error t) (v : List Sample) :
    complexForward p c sch v = .error t := by
  obtain ⟨b, w, hdec⟩ := lineDecode_of_ready hline v
  simp only [complexForward, hdec, carrierMod_of_error h]

theorem complexReverse_of_schemeFault (h : schemeParams p sch = .error t) (y : List Sample) :
    complexReverse p c sch y = .error t := by
  rw [complexReverse, carrierDem_of_error h]

theorem complexReverse_of_lineFault (hcarrier : carrierReady p sch) (h : ∀ b, lineEncode p c b = .error t)
    (y : List Sample) : complexReverse p c sch y = .error t := by
  simp only [complexReverse, carrierDem_of_ready hcarrier, h]

end StageFaults

/-! ## The operations that are refused -/

/-- Two operations of which the same is said. -/
theorem forall_mem_two {P : Instr → Prop} {i j : Instr} (hi : P i) (hj : P j) : ∀ k ∈ [i, j], P k := by
  simpa using ⟨hi, hj⟩

section RefusedOperations

variable {s : State} {sch : Scheme} {t : Trap}

theorem State.finishAs_error {α : Type} (s : State) (kind : α → Buf) (t : Trap) :
    s.finishAs kind (.error t) = s.raise t := rfl

/-- A scheme's modulator and demodulator raise the fault of the scheme's check. -/
theorem exec_modem_of_schemeFault (h : schemeParams s.params sch = .error t) :
    ∀ i ∈ [modOf sch, demOf sch], exec i s = .next (s.raise t) := by
  apply forall_mem_two
  · rw [exec_modOf, carrierMod_of_error h, State.finishAs_error]
  · rw [exec_demOf, carrierDem_of_error h, State.finishAs_error]

/-- The bridge's linear paths raise the fault of the carrier's check, whether or not CFG is valid. -/
theorem exec_linearBridge_of_carrierFault (hpath : ¬ onComplexPath sch) (h : carrierParams s.params = .error t) :
    ∀ i ∈ [forwardOf sch, reverseOf sch], exec i s = .next (s.raise t) := by
  have refused (x : List Sample) : s.finish (asSamples (linearPath s.params x)) = s.raise t := by
    rw [linearPath_of_error h]
    rfl
  cases sch with
  | ask | bpsk => exact forall_mem_two (congrArg Host.Outcome.next (refused _)) (congrArg Host.Outcome.next (refused _))
  | fsk | qpsk | psk8 | qam16 => exact absurd trivial hpath

/-- The modems, and the linear paths of the bridge, raise the fault of the carrier's check. -/
theorem exec_of_carrierFault {i : Instr} (h : carrierParams s.params = .error t)
    (hi : i = modOf sch ∨ i = demOf sch ∨ (¬ onComplexPath sch ∧ (i = forwardOf sch ∨ i = reverseOf sch))) :
    exec i s = .next (s.raise t) := by
  have hmodem := exec_modem_of_schemeFault (schemeParams_of_carrierFault h sch)
  rcases hi with rfl | rfl | ⟨hpath, hi⟩
  · exact hmodem _ (by simp)
  · exact hmodem _ (by simp)
  · exact exec_linearBridge_of_carrierFault hpath h i (by simpa using hi)

/-- The complex path's operations, CFG valid or not. -/
theorem exec_bridge_of_complex (hpath : onComplexPath sch) :
    exec (forwardOf sch) s = .next (s.ifConfigured (complexForward s.params s.cfg.line sch s.inSig)) ∧
    exec (reverseOf sch) s = .next (s.ifConfigured (complexReverse s.params s.cfg.line sch s.inSig)) := by
  cases sch with
  | ask | bpsk => exact hpath.elim
  | fsk | qpsk | psk8 | qam16 => exact ⟨rfl, rfl⟩

theorem State.ifConfigured_of_invalid (h : s.cfgValid = false) (x : Staged (List Sample)) :
    s.ifConfigured x = s.raise ⟨.notConfigured, .none⟩ := by
  simp [State.ifConfigured, h]

theorem exec_forwardOf_of_fault (hpath : onComplexPath sch) (hvalid : s.cfgValid = true)
    (h : complexForward s.params s.cfg.line sch s.inSig = .error t) : exec (forwardOf sch) s = .next (s.raise t) := by
  rw [exec_forwardOf s sch hvalid, bridgeForward_of_complex hpath, h, State.finishAs_error]

theorem exec_reverseOf_of_fault (hpath : onComplexPath sch) (hvalid : s.cfgValid = true)
    (h : complexReverse s.params s.cfg.line sch s.inSig = .error t) : exec (reverseOf sch) s = .next (s.raise t) := by
  rw [exec_reverseOf s sch hvalid, bridgeReverse_of_complex hpath, h, State.finishAs_error]

/-- The complex path raises the fault of the scheme's check, forward once the line decoder has run. -/
theorem exec_complexBridge_of_schemeFault {i : Instr} (hpath : onComplexPath sch) (hvalid : s.cfgValid = true)
    (hi : i = reverseOf sch ∨ (i = forwardOf sch ∧ lineReady s.params s.cfg.line))
    (h : schemeParams s.params sch = .error t) : exec i s = .next (s.raise t) := by
  rcases hi with rfl | ⟨rfl, hline⟩
  · exact exec_reverseOf_of_fault hpath hvalid (complexReverse_of_schemeFault h _)
  · exact exec_forwardOf_of_fault hpath hvalid (complexForward_of_schemeFault hline h _)

/-- Manchester on an odd S: the line decoder is refused first, the line encoder after the demodulator. -/
theorem exec_complexBridge_of_oddManchester (hpath : onComplexPath sch) (hvalid : s.cfgValid = true)
    (hman : s.cfg.line = .manchester) (hodd : s.params.samples % 2 = 1) :
    exec (forwardOf sch) s = .next (s.raise ⟨.invalidParameter, .param .samples⟩) ∧
    (carrierReady s.params sch →
      exec (reverseOf sch) s = .next (s.raise ⟨.invalidParameter, .param .samples⟩)) := by
  constructor
  · refine exec_forwardOf_of_fault hpath hvalid (complexForward_of_lineFault ?_)
    rw [hman]
    exact manDecode_of_odd hodd _
  · intro hcarrier
    refine exec_reverseOf_of_fault hpath hvalid (complexReverse_of_lineFault hcarrier (fun b => ?_) _)
    rw [hman]
    exact manEncode_of_odd hodd b

end RefusedOperations

/-! ## The obligations -/

/-- Settles O48: the step is the host's action on the state with the script moved on, and that action keeps the run. -/
theorem hostCannotDisturbARun : Obligations.HostCannotDisturbARun := by
  unfold Obligations.HostCannotDisturbARun
  intro s t a acts hacts hact hbusy hstep
  rw [step_of_hostActs hacts] at hstep
  obtain ⟨u, hu, hkeep⟩ := act_keepsRun_of_busy (s := { s with hostActs := acts, event := none }) hact hbusy
  obtain rfl := Host.Outcome.next.inj (hu.symm.trans hstep)
  refine ⟨hkeep.flight, hkeep.pstate, hkeep.cfg, hkeep.cfgValid, hkeep.snap, hkeep.sigBase, hkeep.sigMod, hkeep.sigRx,
    hkeep.sigDemod, hkeep.rtext, hkeep.status, hkeep.event, hkeep.hostActs, fun hcmd => ?_⟩
  have hraised := act_pipelineCommand_of_busy (s := { s with hostActs := acts, event := none }) hcmd hbusy
  obtain rfl := Host.Outcome.next.inj (hraised.symm.trans hstep)
  rfl

/-- Settles O31: each operation raises the fault of the first check it makes of the build. -/
theorem parameterFaultsNameTheParameter : Obligations.ParameterFaultsNameTheParameter := by
  unfold Obligations.ParameterFaultsNameTheParameter
  refine ⟨fun s heq => ?bytes, fun s hodd => ?manchester, fun s sch i hi => ?carrier,
    fun s sch htable hf hS hlen => ?table, fun s sch hpath hvalid => ?complexPath⟩
  case bytes =>
    apply forall_mem_two
    · exact (exec_frameEncOf s .byteStuffing).trans (by rw [frameEncode, bsEncode_of_eq heq]; rfl)
    · exact (exec_frameDecOf s .byteStuffing).trans (by rw [frameDecode, bsDecode_of_eq heq]; rfl)
  case manchester =>
    apply forall_mem_two
    · exact (exec_lineEncOf s .manchester).trans (by rw [lineEncode, manEncode_of_odd hodd]; rfl)
    · exact (exec_lineDecOf s .manchester).trans (by rw [lineDecode, manDecode_of_odd hodd]; rfl)
  case carrier =>
    exact ⟨fun hzero => exec_of_carrierFault (carrierParams_of_zero hzero) hi,
      fun hf hS => exec_of_carrierFault (carrierParams_of_le hf hS) hi⟩
  case table => exact exec_modem_of_schemeFault (schemeParams_of_badTable htable hf hS hlen)
  case complexPath =>
    refine ⟨exec_complexBridge_of_oddManchester hpath hvalid, fun i hi => ?_⟩
    have refused {t : Trap} (h : schemeParams s.params sch = .error t) : exec i s = .next (s.raise t) :=
      exec_complexBridge_of_schemeFault hpath hvalid hi h
    exact ⟨fun hzero => refused (schemeParams_of_carrierFault (carrierParams_of_zero hzero) sch),
      fun hf hS => refused (schemeParams_of_carrierFault (carrierParams_of_le hf hS) sch),
      fun hf hS htable hlen => refused (schemeParams_of_badTable htable hf hS hlen)⟩

/-- Settles O36: CFG_VALID is looked at before either stage of the complex path. -/
theorem complexBridgeNeedsConfiguration : Obligations.ComplexBridgeNeedsConfiguration := by
  unfold Obligations.ComplexBridgeNeedsConfiguration
  intro s sch hpath hvalid
  obtain ⟨hforward, hreverse⟩ := exec_bridge_of_complex (s := s) hpath
  simp only [State.ifConfigured_of_invalid hvalid] at hforward hreverse
  exact forall_mem_two hforward hreverse

end Sys2Proof.Machine
end

section
/-! PROOFS. The family 70_reset_and_hazards.md. At reset no run is in flight, the host's script is empty and no edge stands:
such a quiet state is a fixed point of the step (O53). The invariant speaks of a run, of a valid configuration and of
published values, none of which the reset state has (O54). -/

namespace Sys2Proof.Machine

/-! ## The quiet machine -/

section Quiet

variable {s : State}

theorem State.consume_of_quiet (hacts : s.hostActs = []) (hevent : s.event = none) : s.consume = s := by
  cases s
  cases hacts
  cases hevent
  rfl

theorem State.sequence_of_idle (hflight : s.flight = none) : s.sequence = s := by
  simp [State.sequence, hflight]

/-- With no host action, no run in flight and no completion event to end, a step changes nothing. -/
theorem step_of_quiet (hacts : s.hostActs = []) (hevent : s.event = none) (hflight : s.flight = none) :
    step s = .next s :=
  calc step s
    _ = s.act .pass := by rw [step_eq, State.consume_of_quiet hacts hevent, hacts]; rfl
    _ = .next s := congrArg Host.Outcome.next (State.sequence_of_idle hflight)

end Quiet

/-! ## The obligations -/

/-- Settles O53: the values stand in the definition of reset; the reset state is quiet, and it has no status to read. -/
theorem resetValuesOfTheSpec : Obligations.ResetValuesOfTheSpec := by
  unfold Obligations.ResetValuesOfTheSpec
  have hstays : step State.reset = .next State.reset := step_of_quiet rfl rfl rfl
  have hread : step { State.reset with hostActs := [.readStatus] } = .next { State.reset with result := .noStatus } :=
    (noStepStopsAndStatusReadsAnswer.2 _ [] rfl).1 rfl
  exact ⟨rfl, rfl, rfl, rfl, rfl, rfl, rfl, rfl, rfl, rfl, rfl, rfl, rfl, rfl, rfl, rfl, hstays, hread⟩

/-- Settles O54: PSTATE is Idle with no run, RTEXT and the signals are empty, and the other clauses are void. -/
theorem invariantHoldsAtReset : Obligations.InvariantHoldsAtReset where
  phase := rfl
  cfg := fun hvalid => absurd hvalid Bool.false_ne_true
  snap := fun hrun => absurd rfl hrun
  flight := nofun
  rtext := List.forall_mem_nil _
  channel := rfl
  idle := fun _ => rfl
  event := nofun

end Sys2Proof.Machine
end
